-- ==== Sys2Proof/Word.lean ====
section
/-! DEFINITION. The bit-vector types of the modem core: register words, bytes, samples
(spec/00_scope.md section 4, "Notation"). -/

namespace Sys2Proof

/-- A register or command word, 32 bits (10_state.md R29). -/
abbrev Word := BitVec 32

/-- A payload byte, an unsigned integer in 0..255. -/
abbrev Byte := BitVec 8

/-- A PCM sample, a signed 16-bit two's-complement integer, never split into bytes (20_memory.md R42). -/
abbrev Sample := BitVec 16

end Sys2Proof
end

