-- ==== Sys2Proof/Config.lean ====
section
/-! DEFINITION. What one instance of the core fixes (its parameters, 00_scope.md R6 and R7) and the free
values: what the spec leaves unspecified, as constants without a body. -/

namespace Sys2Proof

/-- How the frequency estimate is compared (40_tone_unit.md R86): exactly, or rounded down first. -/
inductive EstArith where
  | exact
  | floor
  deriving DecidableEq, Repr

/-- When a command whose checks include `baud_ok` latches `SPB` (log 7): once its whole configuration check has
passed (the pseudocode of the commands, 60_exceptions.md R149), or as soon as `baud_ok` holds, before anything else
(10_state.md R18, 40_tone_unit.md R80). The two differ only when `baud_ok` holds and the command ends with INVALID. -/
inductive SpbTiming where
  | afterChecks
  | whenBaudOk
  deriving DecidableEq, Repr

/-- The two byte buffers (10_state.md R20). -/
inductive ByteBuf where
  | txb
  | rxb
  deriving DecidableEq, Repr

/-- The two sample buffers (10_state.md R20). -/
inductive SampleBuf where
  | txs
  | rxs
  deriving DecidableEq, Repr

/-- The instance parameters: the six of 00_scope.md R6, the capacities of R7 (`RXB_CAPACITY` is `CAP`) and
`EST_ARITH` of 40_tone_unit.md R86. `spbTiming` is the model's own: the spec's texts differ there (log 7). -/
structure Params where
  sampleRate  : Nat
  fSpace      : Nat
  fMark       : Nat
  cap         : Nat
  ampPos      : Sample
  ampNeg      : Sample
  txbCapacity : Nat
  txsCapacity : Nat
  rxsCapacity : Nat
  estArith    : EstArith
  spbTiming   : SpbTiming
  deriving DecidableEq, Repr

/-- The design values of 00_scope.md R6. DESIGN CHOICE (log 4): the three OPEN capacities stand at the largest
number a length register can hold. DEDUCED (log 7): `SPB` follows the pseudocode. No statement rests on either:
statements quantify over the parameters. -/
def Params.design : Params where
  sampleRate  := 44100
  fSpace      := 1200
  fMark       := 2400
  cap         := 65536
  ampPos      := 32767#16
  ampNeg      := 32768#16
  txbCapacity := 4294967295
  txsCapacity := 4294967295
  rxsCapacity := 4294967295
  estArith    := .exact
  spbTiming   := .afterChecks

/-- The capacity of a byte buffer (00_scope.md R7). -/
def Params.byteCapacity (p : Params) : ByteBuf → Nat
  | .txb => p.txbCapacity
  | .rxb => p.cap

/-- The capacity of a sample buffer (00_scope.md R7). -/
def Params.sampleCapacity (p : Params) : SampleBuf → Nat
  | .txs => p.txsCapacity
  | .rxs => p.rxsCapacity

/-- Free value (20_memory.md R50): the byte that element `i` of a buffer holds before anything is written to it,
in the `epoch`-th life of the machine (log 5). -/
opaque Config.unwrittenByte (epoch : Nat) (b : ByteBuf) (i : Nat) : Byte

/-- Free value (20_memory.md R50): the same for a sample (log 5). -/
opaque Config.unwrittenSample (epoch : Nat) (b : SampleBuf) (i : Nat) : Sample

/-- Free values (10_state.md R23, R24, R25): what the working registers hold between commands, the `n`-th draw
(log 6). -/
opaque Config.freeShift : Nat → BitVec 8
opaque Config.freeKbit : Nat → BitVec 4
opaque Config.freeJstop : Nat → BitVec 8
opaque Config.freeTxi : Nat → Word
opaque Config.freeTxk : Nat → Nat
opaque Config.freeWi : Nat → Nat
opaque Config.freeXc : Nat → Nat

end Sys2Proof
end

