-- ==== Sys2Proof/Syntax.lean ====
section
/-! DEFINITION. The commands of the core (00_scope.md R3, 30_encoding.md R70): one constructor per row of
spec/opcode_table.json. No command carries an operand (30_encoding.md R69). -/

namespace Sys2Proof

inductive Instr where
  /-- `NOP`, 43_modem_stream.md R121. -/
  | nop
  /-- `ENCODE`, 43_modem_stream.md R123. -/
  | encode
  /-- `DECODE`, 43_modem_stream.md R127. -/
  | decode
  /-- `FRAME_ENC`, 42_frame_codec.md R108. -/
  | frameEnc
  /-- `FRAME_DEC`, 42_frame_codec.md R111. -/
  | frameDec
  /-- `SYNTH`, 40_tone_unit.md R83. -/
  | synth
  /-- `CLASSIFY`, 40_tone_unit.md R87. -/
  | classify
  /-- `PARITY`, 41_parity_unit.md R101. -/
  | parity
  deriving DecidableEq, Repr

end Sys2Proof
end

