-- ==== Sys2Proof/Machine/State.lean ====
section
/-! DEFINITION. The state of the modem core as plain data (10_state.md R10 to R31), the host's moves, the ways a
step can stop, and the state after reset (R30). -/

namespace Sys2Proof.Machine

/-- `STATUS.ERR` (60_exceptions.md R143); codes 5 to 7 are never produced. -/
inductive ErrCode where
  | none
  | invalid
  | alloc
  | range
  | illCmd
  deriving DecidableEq, Repr

/-- `RX_STATE` (10_state.md R22); codes 6 and 7 never occur. -/
inductive RxState where
  | idle
  | searching
  | startConfirmed
  | data
  | parity
  | stop
  deriving DecidableEq, Repr

/-- The parity modes the ParityUnit knows (41_parity_unit.md R100). -/
inductive ParityMode where
  | even
  | odd
  deriving DecidableEq, Repr

/-- The eighteen registers of the map of 10_state.md R29. -/
inductive Reg where
  | cmd | status | format | baud | arg | result | xcount | spb
  | txbCount | txsCount | rxsCount | rxbCount | rxpos | rxState
  | paramSampleRate | paramFSpace | paramFMark | paramCap
  deriving DecidableEq, Repr

/-- `STATUS` (10_state.md R14) by its fields; every other bit of the word reads 0. -/
structure Status where
  busy  : Bool
  done  : Bool
  trunc : Bool
  err   : ErrCode
  deriving DecidableEq, Repr

/-- `RESULT` (10_state.md R16) by its fields; every other bit of the word reads 0. -/
structure ResultReg where
  value  : Byte
  accept : Bool
  deriving DecidableEq, Repr

/-- The internal working registers (10_state.md R23, R24, R25). The spec gives `TXK`, `WI` and `XC` no width:
they are counts. -/
structure Work where
  shift : BitVec 8
  kbit  : BitVec 4
  jstop : BitVec 8
  txi   : Word
  txk   : Nat
  wi    : Nat
  xc    : Nat
  deriving DecidableEq, Repr

/-- The values the working registers hold between commands: unspecified (10_state.md R23, R24), so the `n`-th
draw of the free values (log 6). -/
def Work.drawn (n : Nat) : Work where
  shift := Config.freeShift n
  kbit  := Config.freeKbit n
  jstop := Config.freeJstop n
  txi   := Config.freeTxi n
  txk   := Config.freeTxk n
  wi    := Config.freeWi n
  xc    := Config.freeXc n

/-- The written elements of a buffer: (index, element), indexes strictly rising. -/
abbrev Cells (w : Nat) := List (Nat × BitVec w)

/-- The four buffers (10_state.md R20). An element that is not listed has not been written since the last reset
(20_memory.md R50). -/
structure Memory where
  txb : List Host.Cell
  txs : Cells 16
  rxs : Cells 16
  rxb : List Host.Cell
  deriving DecidableEq, Repr

/-- One move of the host: a step of the host script (30_encoding.md R72) or a bus access (10_state.md R29).
Offsets are relative to the base address (20_memory.md R45); `size` is the access width in bytes (log 22). -/
inductive HostAct where
  /-- Bus write; a write of `CMD` runs the command as one atomic transition (43_modem_stream.md R120). -/
  | write (offset size : Nat) (value : Word)
  /-- Bus read; the word goes to `reply`. -/
  | read (offset size : Nat)
  /-- A whole-word write of `CMD` that is only accepted in this step: the core then works in the following
  turns (log 1). -/
  | launch (word : Word)
  /-- `WAIT`: read `STATUS` until `DONE = 1` (log 13). -/
  | waitDone
  /-- The host does nothing in this turn. -/
  | pause
  /-- `LDB`: write bytes from index `i` on. -/
  | loadBytes (buf : ByteBuf) (i : Nat) (vs : List Byte)
  /-- `LDS`: write samples from index `i` on. -/
  | loadSamples (buf : SampleBuf) (i : Nat) (vs : List Sample)
  /-- `RDB`: read `n` bytes from index `i` on. -/
  | readBytes (buf : ByteBuf) (i n : Nat)
  /-- `RDS`: read `n` samples from index `i` on. -/
  | readSamples (buf : SampleBuf) (i n : Nat)
  /-- The host moves `n` samples from one place to another. -/
  | moveSamples (src : SampleBuf) (i : Nat) (dst : SampleBuf) (j n : Nat)
  /-- `MOVS RXS <- TXS`: the loop-back. -/
  | loopback
  /-- The reset input (70_reset_and_hazards.md R160). -/
  | reset
  deriving DecidableEq, Repr

/-- What the last host read gave (log 12). -/
inductive Reply where
  | none
  | word (w : Word)
  | bytes (vs : List Byte)
  | samples (vs : List Sample)
  deriving DecidableEq, Repr

/-- The machine's state. INVENTORY.md lists every field with the rule that names it. `running`, `host`, `reply`,
`epoch` and `draws` are the model's own; `params` holds the instance's parameters, which no step changes. -/
structure State where
  params   : Params
  format   : Word
  baud     : Word
  status   : Status
  arg      : Word
  result   : ResultReg
  xcount   : Word
  spb      : Word
  txbCount : Word
  txsCount : Word
  rxsCount : Word
  rxbCount : Word
  rxpos    : Word
  rxState  : RxState
  work     : Work
  mem      : Memory
  running  : Option Instr
  host     : List HostAct
  reply    : Reply
  epoch    : Nat
  draws    : Nat
  deriving DecidableEq, Repr

/-- How a step can end in a fault. The core itself never faults (60_exceptions.md R140): both reasons are about a
host move at an element that does not exist (20_memory.md R40). -/
inductive Fault where
  /-- Raised by the host moves `loadBytes` and `readBytes` at an index outside the buffer's capacity.
  Safe: the spec has no such element (log 10). -/
  | noSuchByte (buf : ByteBuf) (index : Nat)
  /-- Raised by the host moves `loadSamples`, `readSamples`, `moveSamples` and `loopback` at an index outside the
  buffer's capacity. Safe: the spec has no such element (log 10). -/
  | noSuchSample (buf : SampleBuf) (index : Nat)
  deriving DecidableEq, Repr

/-- How a step can be refused. -/
inductive Refusal where
  /-- A command that has no meaning yet. Raised by no arm: every command has its meaning. Safe. -/
  | notModelled (mnemonic : String)
  /-- The instance's parameters break the constraints of 40_tone_unit.md R81 and 00_scope.md R6 and R7: the
  instance is refused, as R81 says. Raised by `step`. Safe (log 8). -/
  | illFormedInstance
  /-- The host moves on a buffer while `BUSY = 1`: the host has no such move (20_memory.md R46,
  70_reset_and_hazards.md R166). Raised by `step`. Safe (log 11). -/
  | bufferWhileBusy
  deriving DecidableEq, Repr

/-- Nothing written (10_state.md R30: the buffers' contents are unspecified after reset). -/
def Memory.empty : Memory where
  txb := []
  txs := []
  rxs := []
  rxb := []

/-- The state after reset of an instance with parameters `p` (10_state.md R30), in life `epoch`, with the working
registers at draw `n`. -/
def State.afterReset (p : Params) (epoch n : Nat) : State where
  params   := p
  format   := 0#32
  baud     := 0#32
  status   := ⟨false, false, false, .none⟩
  arg      := 0#32
  result   := ⟨0#8, false⟩
  xcount   := 0#32
  spb      := 0#32
  txbCount := 0#32
  txsCount := 0#32
  rxsCount := 0#32
  rxbCount := 0#32
  rxpos    := 0#32
  rxState  := .idle
  work     := Work.drawn n
  mem      := Memory.empty
  running  := none
  host     := []
  reply    := .none
  epoch    := epoch
  draws    := n + 1

/-- The machine right after reset, at the design values (10_state.md R30). -/
def State.reset : State := State.afterReset Params.design 0 0

end Sys2Proof.Machine
end

