-- ==== Sys2Proof/Machine/Flags.lean ====
section
/-! DEFINITION. The flags (10_state.md R27): the codes and words of `STATUS`, `RESULT` and `RX_STATE`, and the three
moments at which a command changes `STATUS`: acceptance, `raise` and completion (43_modem_stream.md R120,
60_exceptions.md R141). -/

namespace Sys2Proof.Machine

/-- `ERR` codes (30_encoding.md R67). -/
def ErrCode.code : ErrCode → BitVec 3
  | .none => 0#3
  | .invalid => 1#3
  | .alloc => 2#3
  | .range => 3#3
  | .illCmd => 4#3

/-- `RX_STATE` codes (10_state.md R22). -/
def RxState.code : RxState → BitVec 3
  | .idle => 0#3
  | .searching => 1#3
  | .startConfirmed => 2#3
  | .data => 3#3
  | .parity => 4#3
  | .stop => 5#3

/-- The word `STATUS` reads as (10_state.md R14): `BUSY` 0, `DONE` 1, `TRUNC` 2, `ERR` 6:4. -/
def Status.toWord (st : Status) : Word :=
  0#25 ++ st.err.code ++ 0#1 ++ BitVec.ofBool st.trunc ++ BitVec.ofBool st.done ++ BitVec.ofBool st.busy

/-- The word `RESULT` reads as (10_state.md R16): `VALUE` 7:0, `ACCEPT` 8. -/
def ResultReg.toWord (r : ResultReg) : Word :=
  0#23 ++ BitVec.ofBool r.accept ++ r.value

/-- The word `RX_STATE` reads as (10_state.md R22): the code in bits 2:0. -/
def RxState.toWord (x : RxState) : Word :=
  0#29 ++ x.code

/-- Acceptance of a command (43_modem_stream.md R120): `BUSY` is set, `DONE`, `TRUNC` and `ERR` are cleared. -/
def accept (s : State) : State :=
  { s with status := ⟨true, false, false, .none⟩ }

/-- `raise e` (60_exceptions.md R141): `ERR` takes the code. What the command did before stays done; that the
command does nothing after it is said where it is used. -/
def raise (e : ErrCode) (s : State) : State :=
  { s with status := { s.status with err := e } }

/-- `STATUS.TRUNC` takes a value (43_modem_stream.md R128). -/
def setTrunc (t : Bool) (s : State) : State :=
  { s with status := { s.status with trunc := t } }

/-- Completion of a command (43_modem_stream.md R120): `RX_STATE` goes to `IDLE`, `BUSY` is cleared, `DONE` is set.
The working registers hold unspecified values from here on (10_state.md R23, R24): the next draw (log 6). -/
def complete (s : State) : State :=
  { s with
    status  := { s.status with busy := false, done := true }
    rxState := .idle
    running := none
    work    := Work.drawn s.draws
    draws   := s.draws + 1 }

/-- A whole command as one atomic transition (43_modem_stream.md R120): acceptance, the command's own rule,
completion. -/
def command (body : State → State) (s : State) : State :=
  complete (body (accept s))

/-- A reserved command word (30_encoding.md R71, 60_exceptions.md R148): accepted, and ended with ILLCMD. -/
def illegalCommand (s : State) : State :=
  command (raise .illCmd) s

end Sys2Proof.Machine
end

