-- ==== Sys2Proof/Machine/Operands.lean ====
section
/-! DEFINITION. The operands of the commands: register fields, the derived quantities of 00_scope.md R9, the
configuration checks, and the register map (10_state.md R29). -/

namespace Sys2Proof.Machine

/-- `FORMAT.DATA_BITS`, bits 3:0 (10_state.md R11). -/
def State.dataBits (s : State) : Nat := (s.format.extractLsb' 0 4).toNat

/-- `FORMAT.PARITY`, bits 5:4 (10_state.md R11). -/
def State.parityCode (s : State) : BitVec 2 := s.format.extractLsb' 4 2

/-- `FORMAT.STOP_BITS`, bits 15:8 (10_state.md R11). -/
def State.stopBits (s : State) : Nat := (s.format.extractLsb' 8 8).toNat

/-- The mode a parity code stands for (30_encoding.md R66); None (0) and the reserved code 3 stand for none. -/
def parityOf (c : BitVec 2) : Option ParityMode :=
  if c = 1#2 then some .even else if c = 2#2 then some .odd else none

/-- The parity mode of `FORMAT`. -/
def State.parityMode (s : State) : Option ParityMode := parityOf s.parityCode

/-- `pf` (00_scope.md R9): 0 if the parity is None, else 1. -/
def State.parityFlag (s : State) : Nat := if s.parityCode = 0#2 then 0 else 1

/-- `frame_bits` (00_scope.md R9). -/
def State.frameBits (s : State) : Nat := 1 + s.dataBits + s.parityFlag + s.stopBits

/-- `spb` (40_tone_unit.md R80): `floor(SAMPLE_RATE / BAUD)`, meant only when `baudOk`. -/
def State.samplesPerBit (s : State) : Nat := s.params.sampleRate / s.baud.toInt.toNat

/-- `L` (00_scope.md R9), the samples of one character. -/
def State.charLen (s : State) : Nat := s.frameBits * s.samplesPerBit

/-- `baud_ok` (40_tone_unit.md R80): `1 ≤ BAUD ≤ SAMPLE_RATE`, `BAUD` read as a signed integer. -/
def State.baudOk (s : State) : Bool :=
  decide (1 ≤ s.baud.toInt) && decide (s.baud.toInt ≤ (s.params.sampleRate : Int))

/-- `fmt_ok` (42_frame_codec.md R105). -/
def State.fmtOk (s : State) : Bool :=
  decide (1 ≤ s.dataBits) && decide (s.dataBits ≤ 8) && decide (1 ≤ s.stopBits) &&
    decide (s.parityCode ≠ 3#2)

/-- `RXS_COUNT ≤ RXS_CAPACITY` (20_memory.md R41). -/
def State.rxsFits (s : State) : Bool := decide (s.rxsCount.toNat ≤ s.params.rxsCapacity)

/-- `1 ≤ TXB_COUNT ≤ TXB_CAPACITY` (43_modem_stream.md R123). -/
def State.txbFits (s : State) : Bool :=
  decide (s.txbCount.toNat ≠ 0) && decide (s.txbCount.toNat ≤ s.params.txbCapacity)

/-- `ARG[7:0]` (10_state.md R15). -/
def State.argByte (s : State) : Byte := s.arg.extractLsb' 0 8

/-- `ARG[0]` (10_state.md R15). -/
def State.argBit (s : State) : Bool := s.arg.getLsbD 0

/-- `period(f)` (40_tone_unit.md R81). -/
def periodOf (p : Params) (f : Nat) : Nat := p.sampleRate / f

/-- `half(f)` (40_tone_unit.md R81). -/
def halfOf (p : Params) (f : Nat) : Nat := periodOf p f / 2

/-- The carrier of a bit (30_encoding.md R60): `F_MARK` for 1, `F_SPACE` for 0. -/
def carrierOf (p : Params) (bit : Bool) : Nat := if bit then p.fMark else p.fSpace

/-- The register at an offset (10_state.md R29); none at any other offset. -/
def regAt (offset : Nat) : Option Reg :=
  match offset with
  | 0x00 => some .cmd
  | 0x04 => some .status
  | 0x08 => some .format
  | 0x0C => some .baud
  | 0x10 => some .arg
  | 0x14 => some .result
  | 0x18 => some .xcount
  | 0x1C => some .spb
  | 0x20 => some .txbCount
  | 0x24 => some .txsCount
  | 0x28 => some .rxsCount
  | 0x2C => some .rxbCount
  | 0x30 => some .rxpos
  | 0x34 => some .rxState
  | 0x38 => some .paramSampleRate
  | 0x3C => some .paramFSpace
  | 0x40 => some .paramFMark
  | 0x44 => some .paramCap
  | _ => none

/-- The offset of a register (10_state.md R29). -/
def Reg.offset : Reg → Nat
  | .cmd => 0x00
  | .status => 0x04
  | .format => 0x08
  | .baud => 0x0C
  | .arg => 0x10
  | .result => 0x14
  | .xcount => 0x18
  | .spb => 0x1C
  | .txbCount => 0x20
  | .txsCount => 0x24
  | .rxsCount => 0x28
  | .rxbCount => 0x2C
  | .rxpos => 0x30
  | .rxState => 0x34
  | .paramSampleRate => 0x38
  | .paramFSpace => 0x3C
  | .paramFMark => 0x40
  | .paramCap => 0x44

/-- The value a host read of a register returns (10_state.md R11 to R26). -/
def readReg (s : State) : Reg → Word
  | .cmd => 0#32
  | .status => s.status.toWord
  | .format => s.format
  | .baud => s.baud
  | .arg => s.arg
  | .result => s.result.toWord
  | .xcount => s.xcount
  | .spb => s.spb
  | .txbCount => s.txbCount
  | .txsCount => s.txsCount
  | .rxsCount => s.rxsCount
  | .rxbCount => s.rxbCount
  | .rxpos => s.rxpos
  | .rxState => s.rxState.toWord
  | .paramSampleRate => BitVec.ofNat 32 s.params.sampleRate
  | .paramFSpace => BitVec.ofNat 32 s.params.fSpace
  | .paramFMark => BitVec.ofNat 32 s.params.fMark
  | .paramCap => BitVec.ofNat 32 s.params.cap

/-- The bits of `FORMAT` that a write stores: 5:0 and 15:8 (10_state.md R11). -/
def formatMask : Word := 0x0000FF3F#32

/-- A host write of an idle core's register other than `CMD` (10_state.md R29): a read-only register ignores it. -/
def writeReg (r : Reg) (v : Word) (s : State) : State :=
  match r with
  | .format => { s with format := v &&& formatMask }
  | .baud => { s with baud := v }
  | .arg => { s with arg := v }
  | .txbCount => { s with txbCount := v }
  | .txsCount => { s with txsCount := v }
  | .rxsCount => { s with rxsCount := v }
  | .rxpos => { s with rxpos := v }
  | .cmd | .status | .result | .xcount | .spb | .rxbCount | .rxState => s
  | .paramSampleRate | .paramFSpace | .paramFMark | .paramCap => s

end Sys2Proof.Machine
end

