-- ==== Sys2Proof/Machine/Ops.lean ====
section
/-! DEFINITION. The named operations on the buffers and registers that the commands share (20_memory.md R40 to
R50), and the one place where a register is written from a number. -/

namespace Sys2Proof.Machine

/-- The written element at an index, if there is one. -/
def Cells.get? {w : Nat} (c : Cells w) (i : Nat) : Option (BitVec w) :=
  match c with
  | [] => none
  | (j, v) :: rest => if j = i then some v else Cells.get? rest i

/-- Consecutive elements as listed cells, from index `i` on. -/
def Cells.block {w : Nat} (i : Nat) (vs : List (BitVec w)) : Cells w :=
  (vs.zipIdx i).map (fun e => (e.2, e.1))

/-- Write consecutive elements from index `i` on; every other element keeps its value (20_memory.md R50). -/
def Cells.store {w : Nat} (c : Cells w) (i : Nat) (vs : List (BitVec w)) : Cells w :=
  c.filter (fun e => decide (e.1 < i)) ++ Cells.block i vs ++
    c.filter (fun e => decide (i + vs.length ≤ e.1))

/-- The canonical form of a buffer: indexes strictly rising. An unlisted element has no value of its own, so no
listed element can equal it (log 5). -/
def Cells.wf {w : Nat} (c : Cells w) : Bool :=
  decide (c.Pairwise (fun a b => a.1 < b.1))

/-- The canonical form of the memory. -/
def Memory.wf (m : Memory) : Bool :=
  Cells.wf m.txb && Cells.wf m.txs && Cells.wf m.rxs && Cells.wf m.rxb

/-- The written elements of a byte buffer. -/
def Memory.bytes (m : Memory) : ByteBuf → Cells 8
  | .txb => m.txb
  | .rxb => m.rxb

/-- The written elements of a sample buffer. -/
def Memory.samples (m : Memory) : SampleBuf → Cells 16
  | .txs => m.txs
  | .rxs => m.rxs

/-- Write bytes from index `i` on. -/
def Memory.storeBytes (m : Memory) (b : ByteBuf) (i : Nat) (vs : List Byte) : Memory :=
  match b with
  | .txb => { m with txb := Cells.store m.txb i vs }
  | .rxb => { m with rxb := Cells.store m.rxb i vs }

/-- Write samples from index `i` on. -/
def Memory.storeSamples (m : Memory) (b : SampleBuf) (i : Nat) (vs : List Sample) : Memory :=
  match b with
  | .txs => { m with txs := Cells.store m.txs i vs }
  | .rxs => { m with rxs := Cells.store m.rxs i vs }

/-- `MemRead(TXB or RXB, i)` (00_scope.md section 4). An element nobody has written is a free value (20_memory.md
R50; log 5). -/
def readByte (s : State) (b : ByteBuf) (i : Nat) : Byte :=
  (Cells.get? (s.mem.bytes b) i).getD (Config.unwrittenByte s.epoch b i)

/-- `MemRead(TXS or RXS, i)` (00_scope.md section 4), as `readByte`. -/
def readSample (s : State) (b : SampleBuf) (i : Nat) : Sample :=
  (Cells.get? (s.mem.samples b) i).getD (Config.unwrittenSample s.epoch b i)

/-- `n` consecutive bytes from index `i` on. -/
def readByteBlock (s : State) (b : ByteBuf) (i n : Nat) : List Byte :=
  (List.range n).map (fun k => readByte s b (i + k))

/-- The written elements among `i .. i+n-1`. -/
def Cells.slice {w : Nat} (c : Cells w) (i n : Nat) : Cells w :=
  c.filter (fun e => decide (i ≤ e.1) && decide (e.1 < i + n))

/-- `n` consecutive samples from index `i` on, each as `readSample` reads it (readSampleBlock_eq in
Sys2Proof/Laws/Cells.lean); the buffer is searched once for the whole block. -/
def readSampleBlock (s : State) (b : SampleBuf) (i n : Nat) : List Sample :=
  let c := Cells.slice (s.mem.samples b) i n
  (List.range n).map (fun k => (Cells.get? c (i + k)).getD (Config.unwrittenSample s.epoch b (i + k)))

/-- `MemWrite` of consecutive bytes. -/
def writeBytes (b : ByteBuf) (i : Nat) (vs : List Byte) (s : State) : State :=
  { s with mem := s.mem.storeBytes b i vs }

/-- `MemWrite` of consecutive samples. -/
def writeSamples (b : SampleBuf) (i : Nat) (vs : List Sample) (s : State) : State :=
  { s with mem := s.mem.storeSamples b i vs }

/-- `SPB <- spb` (10_state.md R18). -/
def latchSpb (s : State) : State :=
  { s with spb := BitVec.ofNat 32 s.samplesPerBit }

/-- What a command whose checks include `baud_ok` does to `SPB` when it ends with INVALID: nothing, unless `baud_ok`
holds and the instance latches `SPB` then (10_state.md R18 against 60_exceptions.md R149; log 7). -/
def latchSpbOnInvalid (s : State) : State :=
  { s with
    spb := if s.params.spbTiming = .whenBaudOk ∧ s.baudOk = true then BitVec.ofNat 32 s.samplesPerBit else s.spb }

/-- `XCOUNT` takes a crossing count (10_state.md R17). -/
def setXcount (c : Nat) (s : State) : State :=
  { s with xcount := BitVec.ofNat 32 c }

/-- `RESULT` takes a value and an acceptance flag (10_state.md R16). -/
def setResult (v : Byte) (a : Bool) (s : State) : State :=
  { s with result := ⟨v, a⟩ }

/-- `RXPOS` takes a position (10_state.md R21). -/
def setRxpos (p : Nat) (s : State) : State :=
  { s with rxpos := BitVec.ofNat 32 p }

/-- `TXS_COUNT` takes a count (10_state.md R19). -/
def setTxsCount (n : Nat) (s : State) : State :=
  { s with txsCount := BitVec.ofNat 32 n }

/-- `RXB_COUNT` takes a count (10_state.md R19). -/
def setRxbCount (n : Nat) (s : State) : State :=
  { s with rxbCount := BitVec.ofNat 32 n }

/-- `RX_STATE` takes a state (10_state.md R22). -/
def setRxState (x : RxState) (s : State) : State :=
  { s with rxState := x }

/-- The working registers take values (10_state.md R23 to R25). -/
def setWork (w : Work) (s : State) : State :=
  { s with work := w }

/-- Append samples to TXS at `TXS_COUNT` and advance it, or raise ALLOC when they do not fit (40_tone_unit.md R83,
42_frame_codec.md R108). -/
def appendSamples (vs : List Sample) (s : State) : State :=
  if s.txsCount.toNat + vs.length > s.params.txsCapacity then raise .alloc s
  else setTxsCount (s.txsCount.toNat + vs.length) (writeSamples .txs s.txsCount.toNat vs s)

end Sys2Proof.Machine
end

