-- ==== Sys2Proof/Machine/Parity.lean ====
section
/-! DEFINITION. ParityUnit (41_parity_unit.md): the parity bit of a byte, and the command `PARITY`. -/

namespace Sys2Proof.Machine

/-- The number of bits of a byte that are 1 (41_parity_unit.md R100). -/
def popcount (b : Byte) : Nat := (List.range 8).countP (fun k => b.getLsbD k)

/-- `compute_parity` (41_parity_unit.md R100), over all eight bits of the byte (R102). -/
def computeParity (b : Byte) (m : ParityMode) : Bool :=
  match m with
  | .even => decide (popcount b % 2 = 1)
  | .odd => decide (1 - popcount b % 2 = 1)

/-- `PARITY` between acceptance and completion (41_parity_unit.md R101). -/
def parityBody (s : State) : State :=
  match s.parityMode with
  | none => raise .invalid s
  | some m => setResult (BitVec.zeroExtend 8 (BitVec.ofBool (computeParity s.argByte m))) false s

/-- `PARITY` (41_parity_unit.md R101). -/
def execParity (s : State) : Host.Outcome State Fault Refusal := .next (command parityBody s)

end Sys2Proof.Machine
end

