-- ==== Sys2Proof/Machine/Tone.lean ====
section
/-! DEFINITION. ToneUnit (40_tone_unit.md): synthesis and classification of one bit-window, and the commands
`SYNTH` and `CLASSIFY`. -/

namespace Sys2Proof.Machine

/-- Sample `i` of a window of a bit (40_tone_unit.md R82): positive in the first half of the carrier cycle. The
index starts at 0 in every window (R84). -/
def toneSample (p : Params) (bit : Bool) (i : Nat) : Sample :=
  if i % periodOf p (carrierOf p bit) < halfOf p (carrierOf p bit) then p.ampPos else p.ampNeg

/-- `synth(bit, n)` (40_tone_unit.md R82). -/
def synth (p : Params) (bit : Bool) (n : Nat) : List Sample :=
  (List.range n).map (toneSample p bit)

/-- `sign(s)` (00_scope.md section 4): a sample at or above 0 is non-negative. -/
def sign (x : Sample) : Bool := decide (0 ≤ x.toInt)

/-- The sign changes between neighbours of a window (40_tone_unit.md R85): strictly inside it, so that the samples
before and after the window play no part. -/
def crossings (w : List Sample) : Nat :=
  match w with
  | [] => 0
  | a :: rest =>
    match rest with
    | [] => 0
    | b :: _ => (if sign a = sign b then 0 else 1) + crossings rest

/-- The decision of 40_tone_unit.md R86 on a window of `n` samples with `c` crossings: is the estimate closer to
`F_MARK`? Ties give 0. With `EST_ARITH = exact` both distances are multiplied by `2·n`; with `floor` the estimate
is rounded down first (log 19). -/
def closerToMark (p : Params) (c n : Nat) : Bool :=
  match p.estArith with
  | .exact =>
    decide (((c : Int) * p.sampleRate - 2 * n * p.fMark).natAbs < ((c : Int) * p.sampleRate - 2 * n * p.fSpace).natAbs)
  | .floor =>
    decide (((c * p.sampleRate / (2 * n) : Nat) - (p.fMark : Int)).natAbs <
      ((c * p.sampleRate / (2 * n) : Nat) - (p.fSpace : Int)).natAbs)

/-- `classify` (40_tone_unit.md R86) of the samples of a window. -/
def classify (p : Params) (w : List Sample) : Bool :=
  closerToMark p (crossings w) w.length

/-- The window of `spb` samples of RXS at a position (20_memory.md R43). -/
def rxWindow (s : State) (pos : Nat) : List Sample :=
  readSampleBlock s .rxs pos s.samplesPerBit

/-- The crossing count of the window of RXS at a position. -/
def crossingsAt (s : State) (pos : Nat) : Nat := crossings (rxWindow s pos)

/-- The bit of the window of RXS at a position. -/
def classifyAt (s : State) (pos : Nat) : Bool := classify s.params (rxWindow s pos)

/-- `SYNTH` between acceptance and completion (40_tone_unit.md R83). -/
def synthBody (s : State) : State :=
  if s.baudOk then appendSamples (synth s.params s.argBit s.samplesPerBit) (latchSpb s)
  else raise .invalid (latchSpbOnInvalid s)

/-- `CLASSIFY` between acceptance and completion (40_tone_unit.md R87). -/
def classifyBody (s : State) : State :=
  if s.baudOk && s.rxsFits then
    if s.rxpos.toNat + s.samplesPerBit > s.rxsCount.toNat then raise .range (latchSpb s)
    else
      setResult (BitVec.zeroExtend 8 (BitVec.ofBool (classifyAt s s.rxpos.toNat))) false
        (setXcount (crossingsAt s s.rxpos.toNat) (latchSpb s))
  else raise .invalid (latchSpbOnInvalid s)

/-- `SYNTH` (40_tone_unit.md R83). -/
def execSynth (s : State) : Host.Outcome State Fault Refusal := .next (command synthBody s)

/-- `CLASSIFY` (40_tone_unit.md R87). -/
def execClassify (s : State) : Host.Outcome State Fault Refusal := .next (command classifyBody s)

end Sys2Proof.Machine
end

