-- ==== Sys2Proof/Machine/Frame.lean ====
section
/-! DEFINITION. FrameCodec (42_frame_codec.md): the serial framer and de-framer, and the commands `FRAME_ENC` and
`FRAME_DEC`. -/

namespace Sys2Proof.Machine

/-- The parity window of a character: one bit, or none when the parity is None (42_frame_codec.md R106). -/
def parityBits (s : State) (b : Byte) : List Bool :=
  match s.parityMode with
  | none => []
  | some m => [computeParity b m]

/-- `char_bits(byte)` (42_frame_codec.md R106): start, data (least significant bit first), parity, stop. -/
def charBits (s : State) (b : Byte) : List Bool :=
  [false] ++ (List.range s.dataBits).map (fun k => b.getLsbD k) ++ parityBits s b ++
    List.replicate s.stopBits true

/-- `frame_enc(byte)` (42_frame_codec.md R107): each bit as one window. -/
def frameEnc (s : State) (b : Byte) : List Sample :=
  (charBits s b).flatMap (fun bit => synth s.params bit s.samplesPerBit)

/-- The position of window `w` of a character that starts at `pos` (30_encoding.md R61). -/
def windowPos (s : State) (pos w : Nat) : Nat := pos + w * s.samplesPerBit

/-- The byte in the data windows of the character at `pos` (42_frame_codec.md R109): the sum of `bit_k · 2^k`. -/
def frameByte (s : State) (pos : Nat) : Nat :=
  ((List.range s.dataBits).map (fun k => (classifyAt s (windowPos s pos (k + 1))).toNat * 2 ^ k)).sum

/-- What `frame_dec` answers (42_frame_codec.md R109); `lastWindow` is the position of the last window it
classified, whose count `XCOUNT` keeps. -/
inductive FrameResult where
  | rejected (lastWindow : Nat)
  | accepted (byte : Byte) (next lastWindow : Nat)
  deriving DecidableEq, Repr

/-- `frame_dec(RXS, pos)` (42_frame_codec.md R109): only the start window is tested; the parity and stop windows
are skipped without being read (R110). -/
def frameDec (s : State) (pos : Nat) : FrameResult :=
  if classifyAt s pos then .rejected pos
  else .accepted (BitVec.ofNat 8 (frameByte s pos)) (pos + s.charLen) (windowPos s pos s.dataBits)

/-- `FRAME_ENC` between acceptance and completion (42_frame_codec.md R108). -/
def frameEncBody (s : State) : State :=
  if s.baudOk && s.fmtOk then appendSamples (frameEnc s s.argByte) (latchSpb s)
  else raise .invalid (latchSpbOnInvalid s)

/-- `FRAME_DEC` between acceptance and completion (42_frame_codec.md R111). -/
def frameDecBody (s : State) : State :=
  if s.baudOk && s.fmtOk && s.rxsFits then
    if s.rxpos.toNat + s.charLen > s.rxsCount.toNat then raise .range (latchSpb s)
    else
      match frameDec s s.rxpos.toNat with
      | .rejected w => setResult 0#8 false (setXcount (crossingsAt s w) (latchSpb s))
      | .accepted b q w =>
        setRxpos q (setResult b true (setXcount (crossingsAt s w) (latchSpb s)))
  else raise .invalid (latchSpbOnInvalid s)

/-- `FRAME_ENC` (42_frame_codec.md R108). -/
def execFrameEnc (s : State) : Host.Outcome State Fault Refusal := .next (command frameEncBody s)

/-- `FRAME_DEC` (42_frame_codec.md R111). -/
def execFrameDec (s : State) : Host.Outcome State Fault Refusal := .next (command frameDecBody s)

end Sys2Proof.Machine
end

