-- ==== Sys2Proof/Machine/Stream.lean ====
section
/-! DEFINITION. ModemStream (43_modem_stream.md): the transmit pass, the receive pass with its start-bit search,
and the commands `NOP`, `ENCODE` and `DECODE`. -/

namespace Sys2Proof.Machine

/-- The payload of `ENCODE`: the valid part of TXB (20_memory.md R41). -/
def payload (s : State) : List Byte := readByteBlock s .txb 0 s.txbCount.toNat

/-- `encode(B)` (43_modem_stream.md R122): the characters back to back. -/
def encodeStream (s : State) (bs : List Byte) : List Sample := bs.flatMap (frameEnc s)

/-- The number of samples `ENCODE` produces (43_modem_stream.md R123), exact. -/
def encodeTotal (s : State) : Nat := s.txbCount.toNat * s.frameBits * s.samplesPerBit

/-- `ENCODE` up to its first buffer write (43_modem_stream.md R123): the empty result, the checks in their order,
`SPB`; then `go`. -/
def encodeWith (go : State → State) (s : State) : State :=
  if s.baudOk && s.fmtOk && s.txbFits then
    if encodeTotal s > s.params.txsCapacity then raise .alloc (latchSpb (setTxsCount 0 s))
    else go (latchSpb (setTxsCount 0 s))
  else raise .invalid (latchSpbOnInvalid (setTxsCount 0 s))

/-- The samples of the whole pass and their count (43_modem_stream.md R123). -/
def encodeWrite (s : State) : State :=
  setTxsCount (encodeTotal s) (writeSamples .txs 0 (encodeStream s (payload s)) s)

/-- How the loop of `decode` ends (43_modem_stream.md R124); `xc` is the count of the last window classified. -/
structure DecodeEnd where
  out   : List Byte
  pos   : Nat
  trunc : Bool
  xc    : Word
  deriving DecidableEq, Repr

/-- The loop of `decode(RXS, RXS_COUNT)` (43_modem_stream.md R124): exhaustion is tested before capacity, a rejected
candidate advances one sample, an accepted one a whole character. `fuel` bounds the iterations (R129; log 18). -/
def decodeLoop (s : State) (fuel pos : Nat) (out : List Byte) (xc : Word) : DecodeEnd :=
  match fuel with
  | 0 => ⟨out, pos, false, xc⟩
  | n + 1 =>
    if pos + s.charLen > s.rxsCount.toNat then ⟨out, pos, false, xc⟩
    else if out.length = s.params.cap then ⟨out, pos, true, xc⟩
    else
      match frameDec s pos with
      | .rejected w => decodeLoop s n (pos + 1) out (BitVec.ofNat 32 (crossingsAt s w))
      | .accepted b q w => decodeLoop s n q (out ++ [b]) (BitVec.ofNat 32 (crossingsAt s w))

/-- `decode(RXS, RXS_COUNT)` (43_modem_stream.md R124), from sample 0 with no output. -/
def decodeStream (s : State) : DecodeEnd := decodeLoop s (s.rxsCount.toNat + 1) 0 [] s.xcount

/-- `DECODE` up to its search (43_modem_stream.md R127): the empty result, the check, `SPB`; then `go`. -/
def decodeWith (go : State → State) (s : State) : State :=
  if s.baudOk && s.fmtOk && s.rxsFits then go (latchSpb (setRxpos 0 (setRxbCount 0 s)))
  else raise .invalid (latchSpbOnInvalid (setRxpos 0 (setRxbCount 0 s)))

/-- What the receive pass leaves (43_modem_stream.md R126, R127, R128). -/
def decodeFinish (e : DecodeEnd) (s : State) : State :=
  setTrunc e.trunc
    (setRxpos e.pos (setRxbCount e.out.length (writeBytes .rxb 0 e.out { s with xcount := e.xc })))

/-- The whole receive pass. -/
def decodeRun (s : State) : State := decodeFinish (decodeStream s) s

/-- `NOP` between acceptance and completion: nothing (43_modem_stream.md R121). -/
def nopBody (s : State) : State := s

/-- `ENCODE` between acceptance and completion (43_modem_stream.md R123). -/
def encodeBody (s : State) : State := encodeWith encodeWrite s

/-- `DECODE` between acceptance and completion (43_modem_stream.md R127). -/
def decodeBody (s : State) : State := decodeWith decodeRun s

/-- `NOP` (43_modem_stream.md R121). -/
def execNop (s : State) : Host.Outcome State Fault Refusal := .next (command nopBody s)

/-- `ENCODE` (43_modem_stream.md R123). -/
def execEncode (s : State) : Host.Outcome State Fault Refusal := .next (command encodeBody s)

/-- `DECODE` (43_modem_stream.md R127). -/
def execDecode (s : State) : Host.Outcome State Fault Refusal := .next (command decodeBody s)

end Sys2Proof.Machine
end

