-- ==== Sys2Proof/WellFormed.lean ====
section
/-! DEFINITION. Well-formedness: of a command (none has an operand that could be ill formed), of a command word
(30_encoding.md R69 and R71) and of an instance's parameters (00_scope.md R6 and R7, 40_tone_unit.md R81, the
table of OPEN parameters of 92_eei_decisions.md). -/

namespace Sys2Proof

/-- Every command is well formed: the format `C` has no operand field (30_encoding.md R69). -/
def Instr.wf : Instr → Bool
  | .nop => true
  | .encode => true
  | .decode => true
  | .frameEnc => true
  | .frameDec => true
  | .synth => true
  | .classify => true
  | .parity => true

/-- A command word that is not reserved: `ZERO` is 0 and `OP` is below 8 (30_encoding.md R71 (a)). -/
def Word.isCommand (w : Word) : Bool :=
  decide (w.extractLsb' 4 28 = 0#28) && decide (w.extractLsb' 0 4 < 8#4)

/-- The rates of an instance: a sample rate that fits its register, and carriers with
`F_SPACE < F_MARK ≤ SAMPLE_RATE / 2`, so that both periods are at least 2 (40_tone_unit.md R81). -/
def Params.ratesOk (p : Params) : Bool :=
  decide (0 < p.sampleRate) && decide (p.sampleRate < 2 ^ 32) && decide (0 < p.fSpace) &&
    decide (p.fSpace < p.fMark) && decide (p.fMark ≤ p.sampleRate / 2)

/-- The amplitudes of an instance: positive and negative (00_scope.md R6). DESIGN CHOICE (log 8), safe: `AMP_POS = 0` is
refused, as R6 has it, although the table of OPEN parameters of 92_eei_decisions.md (D3) would admit it. -/
def Params.ampsOk (p : Params) : Bool :=
  decide (0 < p.ampPos.toInt) && decide (p.ampNeg.toInt < 0)

/-- The capacities of an instance: at least 1 (00_scope.md R7), and below 2^32 where the spec says so
(40_tone_unit.md R95 for TXS, 10_state.md R22 for RXS, R26 for `CAP`). -/
def Params.capacitiesOk (p : Params) : Bool :=
  decide (0 < p.cap) && decide (p.cap < 2 ^ 32) && decide (0 < p.txbCapacity) &&
    decide (0 < p.txsCapacity) && decide (p.txsCapacity < 2 ^ 32) &&
    decide (0 < p.rxsCapacity) && decide (p.rxsCapacity < 2 ^ 32)

/-- An instance the model runs; any other is refused (40_tone_unit.md R81; log 8). -/
def Params.ok (p : Params) : Bool :=
  p.ratesOk && p.ampsOk && p.capacitiesOk

end Sys2Proof
end

