-- ==== Sys2Proof/Decode.lean ====
section
/-! DEFINITION. The command word: decoder, total on 32-bit words and rejecting by name, and encoder
(30_encoding.md R69, R70, R71). A command word has no byte order (20_memory.md R42): it is one register word. -/

namespace Sys2Proof

/-- Why a word is no command (30_encoding.md R71 (a)). -/
inductive DecodeError where
  /-- A bit of `ZERO` (31:4) is set. -/
  | zeroFieldSet
  /-- `OP` is in 0x8..0xF. -/
  | reservedOp
  deriving DecidableEq, Repr

/-- One row of the table of 30_encoding.md R70. -/
structure OpRow where
  pat   : Word
  mask  : Word
  instr : Instr
  deriving DecidableEq, Repr

/-- The table of 30_encoding.md R70. -/
def opTable : List OpRow :=
  [ ⟨0x00000000#32, 0xFFFFFFFF#32, .nop⟩,
    ⟨0x00000001#32, 0xFFFFFFFF#32, .encode⟩,
    ⟨0x00000002#32, 0xFFFFFFFF#32, .decode⟩,
    ⟨0x00000003#32, 0xFFFFFFFF#32, .frameEnc⟩,
    ⟨0x00000004#32, 0xFFFFFFFF#32, .frameDec⟩,
    ⟨0x00000005#32, 0xFFFFFFFF#32, .synth⟩,
    ⟨0x00000006#32, 0xFFFFFFFF#32, .classify⟩,
    ⟨0x00000007#32, 0xFFFFFFFF#32, .parity⟩ ]

/-- A word selects a row when `w AND mask = match` (30_encoding.md R70). -/
def OpRow.selects (r : OpRow) (w : Word) : Bool :=
  decide (w &&& r.mask = r.pat)

/-- The decoder: the row the word selects, or the reason there is none (43_modem_stream.md R120 tests `ZERO`
and then `OP`). -/
def decode (w : Word) : Except DecodeError Instr :=
  match opTable.find? (fun r => r.selects w) with
  | some r => .ok r.instr
  | none =>
    if w.extractLsb' 4 28 = 0#28 then .error .reservedOp else .error .zeroFieldSet

/-- The operation code of a command (30_encoding.md R70). -/
def opcode : Instr → BitVec 4
  | .nop => 0x0#4
  | .encode => 0x1#4
  | .decode => 0x2#4
  | .frameEnc => 0x3#4
  | .frameDec => 0x4#4
  | .synth => 0x5#4
  | .classify => 0x6#4
  | .parity => 0x7#4

/-- The encoder: `ZERO` in bits 31:4, `OP` in bits 3:0 (30_encoding.md R69). -/
def encode (i : Instr) : Word :=
  0#28 ++ opcode i

/-- The command read from an opcode-table word of `nbits` bits; bits above `nbits` are 0. -/
def decodeTableWord (nbits w : Nat) : Option Instr :=
  match decode (BitVec.ofNat 32 (w % 2 ^ nbits)) with
  | .ok i => some i
  | .error _ => none

end Sys2Proof
end

