-- ==== Sys2Proof/Machine/Grain.lean ====
section
/-! DEFINITION. The core seen at the grain of 10_state.md R22: a command that is accepted in one step and works in
the following turns, `BUSY` being 1 meanwhile. `DECODE` moves by one row of the state machine of 43_modem_stream.md
R125, `ENCODE` by one sample of R123; the spec gives the other commands no sequencing, and they act in one turn
(log 17). -/

namespace Sys2Proof.Machine

/-- Classify the window at `RXPOS`: `XC` counts over it and is copied to `XCOUNT` (10_state.md R25). -/
def countWindow (s : State) : State :=
  setWork { s.work with wi := s.samplesPerBit, xc := crossingsAt s s.rxpos.toNat }
    (setXcount (crossingsAt s s.rxpos.toNat) s)

/-- `RXPOS <- RXPOS + n`. -/
def advanceRxpos (n : Nat) (s : State) : State := setRxpos (s.rxpos.toNat + n) s

/-- Rows 1 to 4 of 43_modem_stream.md R125, the guards of `SEARCHING` in the order listed. -/
def rxSearch (s : State) : State :=
  if s.rxpos.toNat + s.charLen > s.rxsCount.toNat then complete s
  else if s.rxbCount.toNat = s.params.cap then complete (setTrunc true s)
  else if classifyAt s s.rxpos.toNat then advanceRxpos 1 (countWindow s)
  else setRxState .startConfirmed (countWindow s)

/-- The row of `START_CONFIRMED`. -/
def rxStart (s : State) : State :=
  setRxState .data (advanceRxpos s.samplesPerBit (setWork { s.work with shift := 0#8, kbit := 0#4 } s))

/-- `SHIFT[KBIT] <- bit`, then `KBIT <- KBIT + 1` (10_state.md R23: the bit is OR-ed in at its position). -/
def shiftIn (bit : Bool) (w : Work) : Work :=
  { w with shift := w.shift ||| (BitVec.zeroExtend 8 (BitVec.ofBool bit) <<< w.kbit.toNat), kbit := w.kbit + 1#4 }

/-- The row of `DATA`. -/
def rxData (s : State) : State :=
  let t := countWindow s
  let u := advanceRxpos s.samplesPerBit (setWork (shiftIn (classifyAt s s.rxpos.toNat) t.work) t)
  if u.work.kbit.toNat < s.dataBits then setRxState .data u
  else if s.parityFlag = 1 then setRxState .parity u
  else setRxState .stop (setWork { u.work with jstop := 0#8 } u)

/-- The row of `PARITY`: the window is not read. -/
def rxParity (s : State) : State :=
  setRxState .stop (advanceRxpos s.samplesPerBit (setWork { s.work with jstop := 0#8 } s))

/-- `RXB[RXB_COUNT] <- SHIFT`, `RXB_COUNT <- RXB_COUNT + 1` ("emit byte"). -/
def emitByte (s : State) : State :=
  setRxbCount (s.rxbCount.toNat + 1) (writeBytes .rxb s.rxbCount.toNat [s.work.shift] s)

/-- The row of `STOP`: the window is not read; the last one emits the byte. -/
def rxStop (s : State) : State :=
  let u := advanceRxpos s.samplesPerBit (setWork { s.work with jstop := s.work.jstop + 1#8 } s)
  if u.work.jstop.toNat < s.stopBits then setRxState .stop u
  else setRxState .searching (emitByte u)

/-- One step of the machine of 43_modem_stream.md R125. -/
def rxStep (s : State) : State :=
  match s.rxState with
  | .idle => s
  | .searching => rxSearch s
  | .startConfirmed => rxStart s
  | .data => rxData s
  | .parity => rxParity s
  | .stop => rxStop s

/-- The next values of the nested counters `TXI`, `TXK`, `WI` (43_modem_stream.md R123, R133). -/
def nextTx (s : State) : Work :=
  if s.work.wi + 1 < s.samplesPerBit then { s.work with wi := s.work.wi + 1 }
  else if s.work.txk + 1 < s.frameBits then { s.work with wi := 0, txk := s.work.txk + 1 }
  else { s.work with wi := 0, txk := 0, txi := s.work.txi + 1#32 }

/-- The index `TXI·L + TXK·spb + WI` of the next sample (43_modem_stream.md R134). -/
def txIndex (s : State) : Nat :=
  s.work.txi.toNat * s.charLen + s.work.txk * s.samplesPerBit + s.work.wi

/-- The next sample: sample `WI` of the window of bit `TXK` of the character of `TXB[TXI]`. -/
def txSample (s : State) : Sample :=
  toneSample s.params (((charBits s (readByte s .txb s.work.txi.toNat))[s.work.txk]?).getD false) s.work.wi

/-- One turn of `ENCODE`: one sample, or the final count (43_modem_stream.md R123). -/
def txStep (s : State) : State :=
  if s.work.txi.toNat < s.txbCount.toNat then setWork (nextTx s) (writeSamples .txs (txIndex s) [txSample s] s)
  else complete (setTxsCount (encodeTotal s) s)

/-- One turn of the core on the command it is running. -/
def tick (s : State) : State :=
  match s.running with
  | none => s
  | some i =>
    match i with
    | .nop => complete (nopBody s)
    | .encode => txStep s
    | .decode => rxStep s
    | .frameEnc => complete (frameEncBody s)
    | .frameDec => complete (frameDecBody s)
    | .synth => complete (synthBody s)
    | .classify => complete (classifyBody s)
    | .parity => complete (parityBody s)

/-- A turn of the core: an idle core waits for a write of `CMD` (70_reset_and_hazards.md R160; log 14). -/
def coreTurn (s : State) : State := if s.status.busy then tick s else s

/-- A command whose first part raised ends at once (60_exceptions.md R141). -/
def endIfRaised (s : State) : State := if s.status.err = .none then s else complete s

/-- What a command does in the step that accepts it: `ENCODE` and `DECODE` make their checks and set up their
counters or state machine; the others act in their one turn. -/
def start (i : Instr) (s : State) : State :=
  match i with
  | .encode => endIfRaised (encodeWith (fun t => setWork { t.work with txi := 0#32, txk := 0, wi := 0 } t) s)
  | .decode => endIfRaised (decodeWith (setRxState .searching) s)
  | .nop => s
  | .frameEnc => s
  | .frameDec => s
  | .synth => s
  | .classify => s
  | .parity => s

/-- A write of a word to `CMD` seen at this grain (43_modem_stream.md R120): ignored while busy; a reserved word ends
at once with ILLCMD. -/
def launch (w : Word) (s : State) : State :=
  if s.status.busy then s
  else
    match decode w with
    | .ok i => start i { accept s with running := some i }
    | .error _ => illegalCommand s

end Sys2Proof.Machine
end

