-- ==== Sys2Proof/Machine/Bus.lean ====
section
/-! DEFINITION. The host's moves (30_encoding.md R72, 10_state.md R29, 20_memory.md R46, 70_reset_and_hazards.md
R160, R165, R166), and the pseudo-steps of the host script. -/

namespace Sys2Proof.Machine

/-- A bus read (10_state.md R29): only an aligned 32-bit access of a register of the map gives its value, any other
reads 0 (93_implementation_defined.md U21). -/
def busRead (s : State) (offset size : Nat) : Word :=
  if size = 4 then
    match regAt offset with
    | some r => readReg s r
    | none => 0#32
  else 0#32

/-- A write of a word to `CMD` (43_modem_stream.md R120): ignored while busy, else the whole command runs. -/
def writeCmd (w : Word) (s : State) : Host.Outcome State Fault Refusal :=
  if s.status.busy then .next s
  else
    match decode w with
    | .ok i => exec i s
    | .error _ => .next (illegalCommand s)

/-- A bus write (10_state.md R29): ignored while busy, and where no aligned 32-bit register is addressed. -/
def busWrite (offset size : Nat) (v : Word) (s : State) : Host.Outcome State Fault Refusal :=
  if size = 4 then
    match regAt offset with
    | some .cmd => writeCmd v s
    | some r => .next (if s.status.busy then s else writeReg r v s)
    | none => .next s
  else .next s

/-- A move on a buffer is the host's only while `BUSY = 0` (20_memory.md R46, 70_reset_and_hazards.md R166; log 11). -/
def whenOwned (s : State) (o : Host.Outcome State Fault Refusal) : Host.Outcome State Fault Refusal :=
  if s.status.busy then .refused .bufferWhileBusy else o

/-- Elements `i .. i+n-1` of a byte buffer must exist (20_memory.md R40; log 10). -/
def withBytes (s : State) (b : ByteBuf) (i n : Nat) (t : State) : Host.Outcome State Fault Refusal :=
  if n = 0 ∨ i + n ≤ s.params.byteCapacity b then .next t
  else .fault (.noSuchByte b (i + n - 1))

/-- Elements `i .. i+n-1` of a sample buffer must exist (20_memory.md R40; log 10). -/
def withSamples (s : State) (b : SampleBuf) (i n : Nat) (o : Host.Outcome State Fault Refusal) :
    Host.Outcome State Fault Refusal :=
  if n = 0 ∨ i + n ≤ s.params.sampleCapacity b then o
  else .fault (.noSuchSample b (i + n - 1))

/-- A copy of `n` samples, read before any is written. -/
def copySamples (src : SampleBuf) (i : Nat) (dst : SampleBuf) (j n : Nat) (s : State) : State :=
  writeSamples dst j (readSampleBlock s src i n) s

/-- The reset input (70_reset_and_hazards.md R160): the values of 10_state.md R30, in a new life of the buffers; a
running command is abandoned. The instance's parameters are not affected, and the host keeps its script (log 15). -/
def hostReset (s : State) : State :=
  { State.afterReset s.params (s.epoch + 1) s.draws with host := s.host }

/-- One move of the host. `s` is the state with that move taken off its list. -/
def hostMove (a : HostAct) (s : State) : Host.Outcome State Fault Refusal :=
  match a with
  | .write offset size v => busWrite offset size v s
  | .read offset size => .next { s with reply := .word (busRead s offset size) }
  | .launch w => .next (launch w s)
  | .waitDone =>
    if s.status.done then .next { s with reply := .word s.status.toWord }
    else .next { coreTurn { s with reply := .word s.status.toWord } with host := .waitDone :: s.host }
  | .pause => .next (coreTurn s)
  | .loadBytes b i vs => whenOwned s (withBytes s b i vs.length (writeBytes b i vs s))
  | .loadSamples b i vs => whenOwned s (withSamples s b i vs.length (.next (writeSamples b i vs s)))
  | .readBytes b i n => whenOwned s (withBytes s b i n { s with reply := .bytes (readByteBlock s b i n) })
  | .readSamples b i n =>
    whenOwned s (withSamples s b i n (.next { s with reply := .samples (readSampleBlock s b i n) }))
  | .moveSamples src i dst j n =>
    whenOwned s (withSamples s src i n (withSamples s dst j n (.next (copySamples src i dst j n s))))
  | .loopback =>
    whenOwned s (withSamples s .txs 0 s.txsCount.toNat (withSamples s .rxs 0 s.txsCount.toNat
      (.next (writeReg .rxsCount s.txsCount (copySamples .txs 0 .rxs 0 s.txsCount.toNat s)))))
  | .reset => .next (hostReset s)

/-- Put a command word where the machine takes its next command from: the head of the host's script, as a write of
`CMD` to an idle core (log 16). -/
def queueCommand (w : Word) (s : State) : State :=
  { s with
    status  := { s.status with busy := false }
    running := none
    host    := .write (Reg.offset .cmd) 4 w :: s.host }

/-- `WR <REG>, <value>` of 30_encoding.md R72. -/
def scriptWr (r : Reg) (v : Word) : HostAct := .write r.offset 4 v

/-- `RD <REG>` of 30_encoding.md R72. -/
def scriptRd (r : Reg) : HostAct := .read r.offset 4

/-- `CMD <MNEMONIC>` of 30_encoding.md R72. -/
def scriptCmd (i : Instr) : HostAct := scriptWr .cmd (encode i)

/-- `RUN <MNEMONIC>` of 30_encoding.md R72: the command and a wait for its end. -/
def scriptRun (i : Instr) : List HostAct := [scriptCmd i, .waitDone]

/-- The parity code of a `CFG` step of 30_encoding.md R72. -/
def parityCodeOf : Option ParityMode → BitVec 2
  | none => 0#2
  | some .even => 1#2
  | some .odd => 2#2

/-- `CFG <d><p><s>, <baud>` of 30_encoding.md R72: `FORMAT` is `(s << 8) | (code(p) << 4) | d`. -/
def scriptCfg (d : BitVec 4) (p : Option ParityMode) (stop : BitVec 8) (baud : Word) : List HostAct :=
  [scriptWr .format (0#16 ++ stop ++ 0#2 ++ parityCodeOf p ++ d), scriptWr .baud baud]

end Sys2Proof.Machine
end

