-- ==== Sys2Proof/Machine/Step.lean ====
section
/-! DEFINITION. One step of the machine: the host's next move, or a turn of the core when the host has none. -/

namespace Sys2Proof.Machine

/-- One step. An instance whose parameters break the constraints is refused (40_tone_unit.md R81; log 8). -/
def step (s : State) : Host.Outcome State Fault Refusal :=
  if s.params.ok then
    match s.host with
    | [] => .next (coreTurn s)
    | a :: rest => hostMove a { s with host := rest }
  else .refused .illFormedInstance

/-- `s` with a command word of `nbits` bits as the next thing the machine takes (log 16). -/
def State.withFetchWord (s : State) (nbits w : Nat) : State :=
  queueCommand (BitVec.ofNat 32 (w % 2 ^ nbits)) s

end Sys2Proof.Machine
end

