-- ==== Sys2Proof/Safety.lean ====
section
/-! DEFINITION. What holds of the machine in every safe run: the invariant of a step. -/

namespace Sys2Proof.Machine

/-- Every written element lies inside the capacity (20_memory.md R41). -/
def Cells.within {w : Nat} (c : Cells w) (n : Nat) : Bool := c.all (fun e => decide (e.1 < n))

/-- Every written element of every buffer lies inside its capacity. -/
def Memory.within (m : Memory) (p : Params) : Bool :=
  Cells.within m.txb p.txbCapacity && Cells.within m.txs p.txsCapacity &&
    Cells.within m.rxs p.rxsCapacity && Cells.within m.rxb p.cap

/-- The bit-windows of the current character that the machine of 43_modem_stream.md R125 has still to consume. -/
def State.windowsLeft (s : State) : Nat :=
  match s.rxState with
  | .idle => 0
  | .searching => 0
  | .startConfirmed => s.frameBits
  | .data => s.dataBits - s.work.kbit.toNat + s.parityFlag + s.stopBits
  | .parity => 1 + s.stopBits
  | .stop => s.stopBits - s.work.jstop.toNat

/-- `RX_STATE` is inside a character. -/
def RxState.inCharacter : RxState → Bool
  | .idle => false
  | .searching => false
  | .startConfirmed => true
  | .data => true
  | .parity => true
  | .stop => true

/-- What holds while `DECODE` runs (43_modem_stream.md R125, R129): the configuration was checked, the rest of the
character lies inside the valid part of RXS, a byte in progress has room in RXB, and the counters are in range. -/
structure RxInv (s : State) : Prop where
  config : (s.baudOk && s.fmtOk && s.rxsFits) = true
  active : s.rxState ≠ .idle
  window : s.rxpos.toNat + s.windowsLeft * s.samplesPerBit ≤ s.rxsCount.toNat
  room : s.rxState.inCharacter = true → s.rxbCount.toNat < s.params.cap
  kbit : s.rxState = .data → s.work.kbit.toNat < s.dataBits
  shift : s.rxState = .data → s.work.shift.toNat < 2 ^ s.work.kbit.toNat
  parity : s.rxState = .parity → s.parityFlag = 1
  jstop : s.rxState = .stop → s.work.jstop.toNat < s.stopBits

/-- What holds while `ENCODE` runs (43_modem_stream.md R123): the configuration was checked, the output fits, and the
counters are in range. -/
structure TxInv (s : State) : Prop where
  config : (s.baudOk && s.fmtOk && s.txbFits) = true
  fits : encodeTotal s ≤ s.params.txsCapacity
  txi : s.work.txi.toNat ≤ s.txbCount.toNat
  inner : s.work.txi.toNat < s.txbCount.toNat → s.work.txk < s.frameBits ∧ s.work.wi < s.samplesPerBit

/-- The invariant of a step. -/
structure Inv (s : State) : Prop where
  /-- The instance is well formed (40_tone_unit.md R81). -/
  params : s.params.ok = true
  /-- The memory is in canonical form. -/
  canonical : s.mem.wf = true
  /-- No element exists outside a capacity (20_memory.md R41). -/
  within : s.mem.within s.params = true
  /-- `RXB_COUNT ≤ CAP` (43_modem_stream.md R128). -/
  rxbCount : s.rxbCount.toNat ≤ s.params.cap
  /-- The reserved bits of `FORMAT` read 0 (10_state.md R11). -/
  format : s.format &&& ~~~formatMask = 0#32
  /-- `BUSY` and `DONE` are never both 1 (10_state.md R27). -/
  busyDone : s.status.busy = true → s.status.done = false
  /-- `TRUNC` can only accompany `ERR = NONE` (60_exceptions.md R148). -/
  truncErr : s.status.trunc = true → s.status.err = .none
  /-- `RX_STATE = IDLE` whenever `BUSY = 0` (10_state.md R22), and no command runs. -/
  idle : s.status.busy = false → s.rxState = .idle ∧ s.running = none
  /-- While a command runs, no error has been raised and nothing was cut off. -/
  busy : s.status.busy = true → s.running ≠ none ∧ s.status.err = .none ∧ s.status.trunc = false
  /-- `RX_STATE` leaves `IDLE` only for `DECODE`. -/
  rxOnly : s.rxState ≠ .idle → s.running = some .decode
  /-- A running `DECODE`. -/
  rx : s.running = some .decode → RxInv s
  /-- A running `ENCODE`. -/
  tx : s.running = some .encode → TxInv s

/-- The state of a completed command with error code `e` and truncation flag `tr` (43_modem_stream.md R120). -/
structure Ended (t : State) (e : ErrCode) (tr : Bool) : Prop where
  status : t.status = ⟨false, true, tr, e⟩
  rxState : t.rxState = .idle
  running : t.running = none

/-- What no command writes: the instance, the configuration, `ARG`, the host's two length registers and its two
input buffers (10_state.md R11, R12, R15, R19, R20), and the model's own record of the host. -/
structure HostSideKept (s t : State) : Prop where
  params : t.params = s.params
  format : t.format = s.format
  baud : t.baud = s.baud
  arg : t.arg = s.arg
  txbCount : t.txbCount = s.txbCount
  rxsCount : t.rxsCount = s.rxsCount
  txb : ∀ a, readByte t .txb a = readByte s .txb a
  rxs : ∀ a, readSample t .rxs a = readSample s .rxs a
  host : t.host = s.host
  reply : t.reply = s.reply
  epoch : t.epoch = s.epoch

/-- The transmit result is unchanged: `TXS_COUNT` and every sample of TXS. -/
structure TransmitKept (s t : State) : Prop where
  txsCount : t.txsCount = s.txsCount
  txs : ∀ a, readSample t .txs a = readSample s .txs a

/-- The receive result is unchanged: `RXB_COUNT` and every byte of RXB. -/
structure ReceiveKept (s t : State) : Prop where
  rxbCount : t.rxbCount = s.rxbCount
  rxb : ∀ a, readByte t .rxb a = readByte s .rxb a

/-- The samples of TXS from index `i` on are `vs`, and every other sample is unchanged. -/
structure TransmitWritten (s t : State) (i : Nat) (vs : List Sample) : Prop where
  inside : ∀ k (h : k < vs.length), readSample t .txs (i + k) = vs[k]
  outside : ∀ a, (a < i ∨ i + vs.length ≤ a) → readSample t .txs a = readSample s .txs a

/-- The bytes of RXB from index 0 on are `vs`, and every other byte is unchanged. -/
structure ReceiveWritten (s t : State) (vs : List Byte) : Prop where
  inside : ∀ k (h : k < vs.length), readByte t .rxb k = vs[k]
  outside : ∀ a, vs.length ≤ a → readByte t .rxb a = readByte s .rxb a

/-- The design rates of 00_scope.md R6 with the exact estimate (92_eei_decisions.md D11). -/
structure DesignRates (p : Params) : Prop where
  sampleRate : p.sampleRate = 44100
  fSpace : p.fSpace = 1200
  fMark : p.fMark = 2400
  estArith : p.estArith = .exact

/-- The window lengths at which a synthesized mark window classifies as 0 (40_tone_unit.md R90). -/
def deafLength (n : Nat) : Bool :=
  (decide (1 ≤ n) && decide (n ≤ 9)) || (decide (13 ≤ n) && decide (n ≤ 18)) ||
    (decide (25 ≤ n) && decide (n ≤ 27))

/-- `SPB` after a command whose checks include `baud_ok` has ended with INVALID. The spec's texts differ where `baud_ok`
holds (10_state.md R18 and 40_tone_unit.md R80 against 60_exceptions.md R149 and the pseudocode); the instance's
`spbTiming` says which one it follows (log 7). -/
structure SpbAfterInvalid (s t : State) : Prop where
  badRate : s.baudOk = false → t.spb = s.spb
  afterChecks : s.params.spbTiming = .afterChecks → t.spb = s.spb
  whenBaudOk : s.params.spbTiming = .whenBaudOk → s.baudOk = true → t.spb.toNat = s.samplesPerBit

/-- `RESULT` and `XCOUNT` are unchanged. -/
def ResultKept (s t : State) : Prop := t.result = s.result ∧ t.xcount = s.xcount

end Sys2Proof.Machine
end

