-- ==== Sys2Proof/Certificates/Slice0/Obligations.lean ====
section
/-! DEFINITION. The statements for the provers, one definition each; OBLIGATIONS.json lists them. "Derived" below
means that the spec itself marks the sentence as an inference from its other rules. -/

open Sys2Proof Sys2Proof.Machine

/-! ### Encoding -/

/-- 30_encoding.md R70: a word that a row of the table selects decodes to that row's command. -/
def Obligations.CommandWordsDecodeAsTheTableSays : Prop :=
  ∀ w : Word,
    (w &&& 0xFFFFFFFF#32 = 0x00000000#32 → decode w = .ok .nop) ∧
    (w &&& 0xFFFFFFFF#32 = 0x00000001#32 → decode w = .ok .encode) ∧
    (w &&& 0xFFFFFFFF#32 = 0x00000002#32 → decode w = .ok .decode) ∧
    (w &&& 0xFFFFFFFF#32 = 0x00000003#32 → decode w = .ok .frameEnc) ∧
    (w &&& 0xFFFFFFFF#32 = 0x00000004#32 → decode w = .ok .frameDec) ∧
    (w &&& 0xFFFFFFFF#32 = 0x00000005#32 → decode w = .ok .synth) ∧
    (w &&& 0xFFFFFFFF#32 = 0x00000006#32 → decode w = .ok .classify) ∧
    (w &&& 0xFFFFFFFF#32 = 0x00000007#32 → decode w = .ok .parity)

/-- A word decodes to a command exactly when it is that command's encoding. -/
def Obligations.DecodeAndEncodeAgree : Prop :=
  ∀ (w : Word) (i : Instr), decode w = .ok i ↔ encode i = w

/-- 30_encoding.md R71 (a): every reserved word is rejected, by the reason that makes it reserved. -/
def Obligations.ReservedWordsAreRejected : Prop :=
  ∀ w : Word, w.isCommand = false →
    decode w = .error (if w.extractLsb' 4 28 = 0#28 then .reservedOp else .zeroFieldSet)

/-! ### The step -/

/-- A step whose next host move writes a command word to an idle core runs that command on the state with the move
taken off; and `withFetchWord` places a command so that the very next step runs it. -/
def Obligations.StepRunsTheDecodedCommand : Prop :=
  (∀ (s : State) (rest : List HostAct) (w : Word) (i : Instr), s.params.ok = true → s.status.busy = false →
    s.host = .write 0 4 w :: rest → decode w = .ok i → step s = exec i { s with host := rest }) ∧
  (∀ (s : State) (i : Instr), s.params.ok = true →
    step (s.withFetchWord 32 (encode i).toNat) =
      exec i { s with status := { s.status with busy := false }, running := none })

/-- A reserved word ends with ILLCMD and changes nothing else that the host can see (30_encoding.md R71 (a),
60_exceptions.md R148). -/
def Obligations.ReservedWordEndsWithIllcmd : Prop :=
  ∀ (s : State) (rest : List HostAct) (w : Word), s.params.ok = true → s.status.busy = false →
    s.host = .write 0 4 w :: rest → w.isCommand = false →
    ∃ t, step s = .next t ∧ Ended t .illCmd false ∧ t.params = s.params ∧ t.format = s.format ∧ t.baud = s.baud ∧
      t.arg = s.arg ∧ ResultKept s t ∧ t.spb = s.spb ∧ t.txbCount = s.txbCount ∧ t.txsCount = s.txsCount ∧
      t.rxsCount = s.rxsCount ∧ t.rxbCount = s.rxbCount ∧ t.rxpos = s.rxpos ∧ t.mem = s.mem ∧ t.epoch = s.epoch ∧
      t.host = rest ∧ t.reply = s.reply

/-- 10_state.md R30: the values after reset, and what they make of a first `ENCODE` or `DECODE`: INVALID with an empty
result. Of the buffers and working registers nothing is said, since they are unspecified. -/
def Obligations.ResetValues : Prop :=
  State.reset.status = ⟨false, false, false, .none⟩ ∧ readReg State.reset .status = 0#32 ∧
  State.reset.format = 0#32 ∧ State.reset.fmtOk = false ∧ State.reset.baud = 0#32 ∧ State.reset.baudOk = false ∧
  State.reset.arg = 0#32 ∧ readReg State.reset .result = 0#32 ∧ State.reset.xcount = 0#32 ∧ State.reset.spb = 0#32 ∧
  State.reset.txbCount = 0#32 ∧ State.reset.txsCount = 0#32 ∧ State.reset.rxsCount = 0#32 ∧
  State.reset.rxbCount = 0#32 ∧ State.reset.rxpos = 0#32 ∧ State.reset.rxState = .idle ∧
  readReg State.reset .rxState = 0#32 ∧
  readReg State.reset .paramSampleRate = 44100#32 ∧ readReg State.reset .paramFSpace = 1200#32 ∧
  readReg State.reset .paramFMark = 2400#32 ∧ readReg State.reset .paramCap = 65536#32 ∧
  (∃ t, exec .encode State.reset = .next t ∧ Ended t .invalid false ∧ t.txsCount = 0#32) ∧
  (∃ t, exec .decode State.reset = .next t ∧ Ended t .invalid false ∧ t.rxbCount = 0#32)

/-- 70_reset_and_hazards.md R160: reset puts every register at its reset value, also during a command, which it
abandons; the parameters stay, and the buffers hold new unspecified values. -/
def Obligations.ResetAbandonsTheRunningCommand : Prop :=
  ∀ (s : State) (rest : List HostAct), s.params.ok = true → s.host = .reset :: rest →
    ∃ t, step s = .next t ∧ t.status = ⟨false, false, false, .none⟩ ∧ t.running = none ∧ t.rxState = .idle ∧
      t.format = 0#32 ∧ t.baud = 0#32 ∧ t.arg = 0#32 ∧ t.result = ⟨0#8, false⟩ ∧ t.xcount = 0#32 ∧ t.spb = 0#32 ∧
      t.txbCount = 0#32 ∧ t.txsCount = 0#32 ∧ t.rxsCount = 0#32 ∧ t.rxbCount = 0#32 ∧ t.rxpos = 0#32 ∧
      t.params = s.params ∧ t.host = rest ∧
      (∀ b i, readByte t b i = Config.unwrittenByte (s.epoch + 1) b i) ∧
      (∀ b i, readSample t b i = Config.unwrittenSample (s.epoch + 1) b i)

/-! ### The host's bus -/

/-- While `BUSY = 1` every host register write is ignored, a write of `CMD` among them, in both forms a command can
be given (10_state.md R13 and R29, 70_reset_and_hazards.md R165). -/
def Obligations.BusyCoreIgnoresRegisterWrites : Prop :=
  ∀ (s : State) (rest : List HostAct), s.params.ok = true → s.status.busy = true →
    (∀ offset size v, s.host = .write offset size v :: rest → step s = .next { s with host := rest }) ∧
    (∀ w, s.host = .launch w :: rest → step s = .next { s with host := rest })

/-- 10_state.md R29: a read returns the current value, busy or not, of the register at an aligned offset of the map,
and 0 anywhere else; it has no side effect (20_memory.md R44). -/
def Obligations.BusReadReturnsTheRegister : Prop :=
  (∀ r : Reg, regAt r.offset = some r) ∧ (∀ o, 0x48 ≤ o → regAt o = none) ∧ (∀ o, o % 4 ≠ 0 → regAt o = none) ∧
  (∀ (s : State) (rest : List HostAct) (o size : Nat), s.params.ok = true → s.host = .read o size :: rest →
    ∃ v, step s = .next { s with host := rest, reply := .word v } ∧
      (∀ r, size = 4 → o = r.offset → v = readReg s r) ∧ (size ≠ 4 → v = 0#32) ∧
      (regAt o = none → v = 0#32)) ∧
  (∀ s : State, readReg s .cmd = 0#32)

/-- A write to an idle core's register stores as the register's own rule says and leaves every other register's value
alone: `FORMAT` keeps bits 5:0 and 15:8 (10_state.md R11), the plain registers keep the word, the read-only ones
ignore it; a misaligned, unmapped or sub-word write does nothing (10_state.md R29). -/
def Obligations.BusWriteStoresAsTheMapSays : Prop :=
  ∀ (s : State) (rest : List HostAct) (o size : Nat) (v : Word), s.params.ok = true → s.status.busy = false →
    s.host = .write o size v :: rest →
    ((size ≠ 4 ∨ regAt o = none) → step s = .next { s with host := rest }) ∧
    (∀ r, size = 4 → o = r.offset → r ≠ .cmd → ∃ t, step s = .next t ∧ t.mem = s.mem ∧ t.epoch = s.epoch ∧
      (∀ q, q ≠ r → readReg t q = readReg s q) ∧
      (r = .format → ∀ k, k < 32 →
        t.format.getLsbD k = (v.getLsbD k && (decide (k < 6) || (decide (8 ≤ k) && decide (k < 16))))) ∧
      (r ∈ [.baud, .arg, .txbCount, .txsCount, .rxsCount, .rxpos] → readReg t r = v) ∧
      (r ∈ [.status, .result, .xcount, .spb, .rxbCount, .rxState, .paramSampleRate, .paramFSpace, .paramFMark,
        .paramCap] → t = { s with host := rest }))

/-- A host write of buffer elements is what a later read of them gives, and every other element keeps its value
(20_memory.md R44, R47, R50). That the host may write RXB too is the model's choice (log 9): R46 and
60_exceptions.md R151 against the table of R40. -/
def Obligations.BufferElementsReadAsWritten : Prop :=
  ∀ (s : State) (rest : List HostAct) (i : Nat), s.params.ok = true → s.status.busy = false →
    (∀ b vs, s.host = .loadBytes b i vs :: rest → i + vs.length ≤ s.params.byteCapacity b →
      ∃ t, step s = .next t ∧ (∀ k (h : k < vs.length), readByte t b (i + k) = vs[k]) ∧
        (∀ b' a, (b' ≠ b ∨ a < i ∨ i + vs.length ≤ a) → readByte t b' a = readByte s b' a) ∧
        (∀ b' a, readSample t b' a = readSample s b' a) ∧ (∀ r, readReg t r = readReg s r)) ∧
    (∀ b vs, s.host = .loadSamples b i vs :: rest → i + vs.length ≤ s.params.sampleCapacity b →
      ∃ t, step s = .next t ∧ (∀ k (h : k < vs.length), readSample t b (i + k) = vs[k]) ∧
        (∀ b' a, (b' ≠ b ∨ a < i ∨ i + vs.length ≤ a) → readSample t b' a = readSample s b' a) ∧
        (∀ b' a, readByte t b' a = readByte s b' a) ∧ (∀ r, readReg t r = readReg s r))

/-- The host has no move on a buffer while `BUSY = 1` (20_memory.md R46, 70_reset_and_hazards.md R166): the model's
choice of a refusal is log 11. An element outside the capacity does not exist (20_memory.md R40): the model's fault,
which names the last index asked for, is log 10. A move of samples is tested at its source first. -/
def Obligations.BufferMovesNeedOwnershipAndAnElement : Prop :=
  ∀ (s : State) (rest : List HostAct), s.params.ok = true →
    (∀ a, s.status.busy = true → s.host = a :: rest →
      (∃ b i vs, a = .loadBytes b i vs) ∨ (∃ b i vs, a = .loadSamples b i vs) ∨ (∃ b i n, a = .readBytes b i n) ∨
        (∃ b i n, a = .readSamples b i n) ∨ (∃ c i d j n, a = .moveSamples c i d j n) ∨ a = .loopback →
      step s = .refused .bufferWhileBusy) ∧
    (∀ b i n, s.status.busy = false → s.host = .readBytes b i (n + 1) :: rest → s.params.byteCapacity b ≤ i + n →
      step s = .fault (.noSuchByte b (i + n))) ∧
    (∀ b i n, s.status.busy = false → s.host = .readSamples b i (n + 1) :: rest →
      s.params.sampleCapacity b ≤ i + n → step s = .fault (.noSuchSample b (i + n))) ∧
    (∀ b i v vs, s.status.busy = false → s.host = .loadBytes b i (v :: vs) :: rest →
      s.params.byteCapacity b ≤ i + vs.length → step s = .fault (.noSuchByte b (i + vs.length))) ∧
    (∀ b i v vs, s.status.busy = false → s.host = .loadSamples b i (v :: vs) :: rest →
      s.params.sampleCapacity b ≤ i + vs.length → step s = .fault (.noSuchSample b (i + vs.length))) ∧
    (∀ c i d j n, s.status.busy = false → s.host = .moveSamples c i d j (n + 1) :: rest →
      (s.params.sampleCapacity c ≤ i + n → step s = .fault (.noSuchSample c (i + n))) ∧
      (i + n < s.params.sampleCapacity c → s.params.sampleCapacity d ≤ j + n →
        step s = .fault (.noSuchSample d (j + n)))) ∧
    (s.status.busy = false → s.host = .loopback :: rest →
      (s.params.txsCapacity < s.txsCount.toNat → step s = .fault (.noSuchSample .txs (s.txsCount.toNat - 1))) ∧
      (s.txsCount.toNat ≤ s.params.txsCapacity → s.params.rxsCapacity < s.txsCount.toNat →
        step s = .fault (.noSuchSample .rxs (s.txsCount.toNat - 1))))

/-- `WAIT` (30_encoding.md R72) after a command gives the command's final `STATUS`, with `DONE = 1`. -/
def Obligations.WaitGivesTheFinalStatus : Prop :=
  ∀ (s : State) (i : Instr) (rest : List HostAct), s.params.ok = true → s.status.busy = false →
    s.host = .write 0 4 (encode i) :: .waitDone :: rest →
    ∃ t, exec i { s with host := .waitDone :: rest } = .next t ∧ t.status.done = true ∧
      Host.Core.run Sys2Proof.core 2 s = .next { t with host := rest, reply := .word t.status.toWord }

/-! ### All commands -/

/-- Every command completes (43_modem_stream.md R120): it answers a state that is idle with `DONE = 1`, whatever the
state was; it writes nothing that is the host's (10_state.md R11, R12, R15, R19, R20). -/
def Obligations.EveryCommandCompletesAndKeepsTheHostSide : Prop :=
  ∀ (i : Instr) (s : State), ∃ t e tr, exec i s = .next t ∧ Ended t e tr ∧ HostSideKept s t

/-- 60_exceptions.md R143: the code each accepted word ends with, by cause, in the fixed order of R148. -/
def Obligations.ErrorCodeOfEachCommandWord : Prop :=
  ∀ (w : Word) (s : State), s.status.busy = false → ∃ t, writeCmd w s = .next t ∧
    t.status.err =
      match decode w with
      | .error _ => .illCmd
      | .ok .nop => .none
      | .ok .encode =>
        if ¬ (s.baudOk = true ∧ s.fmtOk = true ∧ s.txbCount.toNat ≠ 0 ∧ s.txbCount.toNat ≤ s.params.txbCapacity)
        then .invalid
        else if s.txbCount.toNat * s.charLen > s.params.txsCapacity then .alloc else .none
      | .ok .decode =>
        if ¬ (s.baudOk = true ∧ s.fmtOk = true ∧ s.rxsCount.toNat ≤ s.params.rxsCapacity) then .invalid else .none
      | .ok .frameEnc =>
        if ¬ (s.baudOk = true ∧ s.fmtOk = true) then .invalid
        else if s.txsCount.toNat + s.charLen > s.params.txsCapacity then .alloc else .none
      | .ok .frameDec =>
        if ¬ (s.baudOk = true ∧ s.fmtOk = true ∧ s.rxsCount.toNat ≤ s.params.rxsCapacity) then .invalid
        else if s.rxpos.toNat + s.charLen > s.rxsCount.toNat then .range else .none
      | .ok .synth =>
        if ¬ s.baudOk = true then .invalid
        else if s.txsCount.toNat + s.samplesPerBit > s.params.txsCapacity then .alloc else .none
      | .ok .classify =>
        if ¬ (s.baudOk = true ∧ s.rxsCount.toNat ≤ s.params.rxsCapacity) then .invalid
        else if s.rxpos.toNat + s.samplesPerBit > s.rxsCount.toNat then .range else .none
      | .ok .parity => if s.parityCode = 1#2 ∨ s.parityCode = 2#2 then .none else .invalid

/-- 60_exceptions.md R149: the complete effect of an error. Where an INVALID leaves `SPB` is
the model's choice between two texts of the spec (log 7). -/
def Obligations.ErrorLeavesEverythingElse : Prop :=
  ∀ (w : Word) (s t : State), s.params.ok = true → s.status.busy = false → writeCmd w s = .next t →
    t.status.err ≠ .none →
    Ended t t.status.err false ∧ HostSideKept s t ∧ ResultKept s t ∧
    (∀ a, readSample t .txs a = readSample s .txs a) ∧ (∀ a, readByte t .rxb a = readByte s .rxb a) ∧
    t.txsCount = (if decode w = .ok .encode then 0#32 else s.txsCount) ∧
    t.rxbCount = (if decode w = .ok .decode then 0#32 else s.rxbCount) ∧
    t.rxpos = (if decode w = .ok .decode then 0#32 else s.rxpos) ∧
    (t.status.err = .alloc ∨ t.status.err = .range → t.spb.toNat = s.samplesPerBit) ∧
    (t.status.err = .invalid → decode w ≠ .ok .parity → SpbAfterInvalid s t) ∧
    (decode w = .ok .parity ∨ t.status.err = .illCmd → t.spb = s.spb)

/-- 60_exceptions.md R150: no error is sticky and none disables the core: what a command does never depends on the
status before it. -/
def Obligations.NoErrorIsSticky : Prop :=
  ∀ (i : Instr) (s : State) (st : Status), exec i { s with status := st } = exec i s

/-- 60_exceptions.md R153, 20_memory.md R41: `ENCODE` depends only on the configuration and the valid part of TXB,
`DECODE` only on the configuration and the valid part of RXS. -/
def Obligations.EachDirectionReadsOnlyItsOwnInput : Prop :=
  ∀ s t : State, t.params = s.params → t.format = s.format → t.baud = s.baud →
    (t.txbCount = s.txbCount → (∀ a, a < s.txbCount.toNat → readByte t .txb a = readByte s .txb a) →
      ∃ s' t', exec .encode s = .next s' ∧ exec .encode t = .next t' ∧ t'.status = s'.status ∧
        t'.txsCount = s'.txsCount ∧ ∀ a, a < s'.txsCount.toNat → readSample t' .txs a = readSample s' .txs a) ∧
    (t.rxsCount = s.rxsCount → (∀ a, a < s.rxsCount.toNat → readSample t .rxs a = readSample s .rxs a) →
      ∃ s' t', exec .decode s = .next s' ∧ exec .decode t = .next t' ∧ t'.status = s'.status ∧
        t'.rxbCount = s'.rxbCount ∧ t'.rxpos = s'.rxpos ∧
        ∀ a, a < s'.rxbCount.toNat → readByte t' .rxb a = readByte s' .rxb a)

/-! ### NOP and PARITY -/

/-- 43_modem_stream.md R121: `NOP` clears the status and changes nothing else. -/
def Obligations.NopOnlyClearsStatus : Prop :=
  ∀ s : State, ∃ t, exec .nop s = .next t ∧ Ended t .none false ∧ t.status.toWord = 0x02#32 ∧ HostSideKept s t ∧
    ResultKept s t ∧ TransmitKept s t ∧ ReceiveKept s t ∧ t.spb = s.spb ∧ t.rxpos = s.rxpos

/-- 41_parity_unit.md R100: the parity bit, its total, and the rule's corner cases and worked example. -/
def Obligations.ParityBitMakesTheTotalEvenOrOdd : Prop :=
  (∀ b, (computeParity b .even).toNat = popcount b % 2) ∧ (∀ b, (computeParity b .odd).toNat = 1 - popcount b % 2) ∧
  (∀ b, (popcount b + (computeParity b .even).toNat) % 2 = 0) ∧
  (∀ b, (popcount b + (computeParity b .odd).toNat) % 2 = 1) ∧
  computeParity 0x00#8 .even = false ∧ computeParity 0x00#8 .odd = true ∧
  computeParity 0xFF#8 .even = false ∧ computeParity 0xFF#8 .odd = true ∧
  computeParity 0x01#8 .even = true ∧ computeParity 0x01#8 .odd = false ∧
  computeParity 0x03#8 .even = false ∧ computeParity 0x03#8 .odd = true

/-- 41_parity_unit.md R101: `PARITY` gives the parity bit of `ARG[7:0]`, needs nothing but the parity field, and is
INVALID for None and the reserved code. -/
def Obligations.ParityCommand : Prop :=
  ∀ s : State,
    (∀ m, (s.parityCode = 1#2 ∧ m = .even) ∨ (s.parityCode = 2#2 ∧ m = .odd) →
      ∃ t, exec .parity s = .next t ∧ Ended t .none false ∧
        t.result.value.toNat = (computeParity s.argByte m).toNat ∧ t.result.accept = false ∧ t.xcount = s.xcount ∧
        HostSideKept s t ∧ TransmitKept s t ∧ ReceiveKept s t ∧ t.spb = s.spb ∧ t.rxpos = s.rxpos) ∧
    (s.parityCode = 0#2 ∨ s.parityCode = 3#2 →
      ∃ t, exec .parity s = .next t ∧ Ended t .invalid false ∧ ResultKept s t ∧
        HostSideKept s t ∧ TransmitKept s t ∧ ReceiveKept s t ∧ t.spb = s.spb ∧ t.rxpos = s.rxpos)

/-! ### ToneUnit -/

/-- 40_tone_unit.md R82: the samples of a window, from index 0 whatever came before, and its corner cases. -/
def Obligations.SynthesizedWindow : Prop :=
  (∀ p bit n, (synth p bit n).length = n) ∧
  (∀ p bit n i (h : i < (synth p bit n).length), (synth p bit n)[i] =
    if i % (p.sampleRate / (if bit then p.fMark else p.fSpace)) <
        p.sampleRate / (if bit then p.fMark else p.fSpace) / 2
    then p.ampPos else p.ampNeg) ∧
  (∀ p bit, synth p bit 0 = []) ∧
  (∀ p bit n, n < halfOf p (carrierOf p bit) → synth p bit n = List.replicate n p.ampPos) ∧
  synth Params.design true 36 = List.replicate 9 32767#16 ++ List.replicate 9 32768#16 ++
    List.replicate 9 32767#16 ++ List.replicate 9 32768#16 ∧
  synth Params.design false 36 = List.replicate 18 32767#16 ++ List.replicate 18 32768#16

/-- 40_tone_unit.md R83: `SYNTH` appends one window at `TXS_COUNT`, or raises and leaves TXS alone. -/
def Obligations.SynthCommand : Prop :=
  ∀ s : State, s.params.ok = true →
    (s.baudOk = true → s.txsCount.toNat + s.samplesPerBit ≤ s.params.txsCapacity →
      ∃ t, exec .synth s = .next t ∧ Ended t .none false ∧ t.spb.toNat = s.samplesPerBit ∧
        t.txsCount.toNat = s.txsCount.toNat + s.samplesPerBit ∧
        TransmitWritten s t s.txsCount.toNat (synth s.params s.argBit s.samplesPerBit) ∧
        HostSideKept s t ∧ ReceiveKept s t ∧ ResultKept s t ∧ t.rxpos = s.rxpos) ∧
    (s.baudOk = true → s.txsCount.toNat + s.samplesPerBit > s.params.txsCapacity →
      ∃ t, exec .synth s = .next t ∧ Ended t .alloc false ∧ t.spb.toNat = s.samplesPerBit ∧ TransmitKept s t ∧
        HostSideKept s t ∧ ReceiveKept s t ∧ ResultKept s t ∧ t.rxpos = s.rxpos) ∧
    (s.baudOk = false →
      ∃ t, exec .synth s = .next t ∧ Ended t .invalid false ∧ t.spb = s.spb ∧ TransmitKept s t ∧
        HostSideKept s t ∧ ReceiveKept s t ∧ ResultKept s t ∧ t.rxpos = s.rxpos)

/-- 40_tone_unit.md R85: the crossing count is the number of indexes `k` in `1 .. n-1` where the sign differs from
the sample before; it is below `n`; it reads the samples of the window and no others; the rule's corner cases. -/
def Obligations.CrossingsCountSignChanges : Prop :=
  (∀ w : List Sample, crossings w =
    (List.range (w.length - 1)).countP (fun k =>
      decide (sign (w[k + 1]?.getD 0#16) ≠ sign (w[k]?.getD 0#16)))) ∧
  (∀ w : List Sample, w ≠ [] → crossings w < w.length) ∧
  (∀ (s t : State) (pos : Nat), t.samplesPerBit = s.samplesPerBit →
    (∀ k, k < s.samplesPerBit → readSample t .rxs (pos + k) = readSample s .rxs (pos + k)) →
    crossingsAt t pos = crossingsAt s pos) ∧
  sign 0#16 = true ∧ sign 1#16 = true ∧ sign 32767#16 = true ∧ sign 65535#16 = false ∧
  (∀ x, crossings [x] = 0) ∧ crossings [65535#16, 0#16, 65535#16] = 2 ∧
  (∀ x n, crossings (List.replicate n x) = 0) ∧
  crossings (synth Params.design true 36) = 3 ∧ crossings (synth Params.design false 36) = 1

/-- 40_tone_unit.md R86: bit 1 exactly when the estimated frequency, an exact rational number, is closer to `F_MARK`
than to `F_SPACE`; ties give 0; with `EST_ARITH = floor` the estimate is rounded down first. -/
def Obligations.ClassifyPicksTheNearerTone : Prop :=
  ∀ (p : Params) (w : List Sample), w ≠ [] →
    (p.estArith = .exact →
      (classify p w = true ↔
        |(crossings w : ℚ) * p.sampleRate / (2 * w.length) - p.fMark| <
          |(crossings w : ℚ) * p.sampleRate / (2 * w.length) - p.fSpace|)) ∧
    (p.estArith = .floor →
      (classify p w = true ↔
        |⌊(crossings w : ℚ) * p.sampleRate / (2 * w.length)⌋ - (p.fMark : ℤ)| <
          |⌊(crossings w : ℚ) * p.sampleRate / (2 * w.length)⌋ - (p.fSpace : ℤ)|))

/-- Derived by the spec (40_tone_unit.md R88): the threshold form, and its numbers at the design rates. -/
def Obligations.ClassifyThresholdForm : Prop :=
  (∀ (p : Params) (w : List Sample), p.fSpace < p.fMark → p.estArith = .exact →
    (classify p w = true ↔ crossings w * p.sampleRate > w.length * (p.fSpace + p.fMark))) ∧
  (∀ (p : Params) (w : List Sample), DesignRates p →
    (classify p w = true ↔ 4 * w.length / 49 + 1 ≤ crossings w))

/-- Derived by the spec (40_tone_unit.md R89): a window of constant sign classifies as 0, the value of a start bit. -/
def Obligations.ConstantSignClassifiesAsZero : Prop :=
  ∀ (p : Params) (w : List Sample) (b : Bool), p.ok = true → (∀ x ∈ w, sign x = b) → classify p w = false

/-- Derived by the spec (40_tone_unit.md R90): what the core hears of its own tones at the design rates. -/
def Obligations.OwnTonesAtTheDesignRates : Prop :=
  ∀ (p : Params) (n : Nat), p.ok = true → DesignRates p → 1 ≤ n →
    crossings (synth p false n) = (n - 1) / 18 ∧ classify p (synth p false n) = false ∧
    crossings (synth p true n) = (n - 1) / 9 ∧ classify p (synth p true n) = !deafLength n

/-- Derived by the spec (70_reset_and_hazards.md R167): the baud rates at which the core cannot hear its own mark tone,
at the design values. -/
def Obligations.DeafBaudRates : Prop :=
  ∀ s : State, s.params.ok = true → DesignRates s.params → s.baudOk = true →
    (classify s.params (synth s.params true s.samplesPerBit) = false ↔
      (1576 ≤ s.baud.toNat ∧ s.baud.toNat ≤ 1764) ∨ (2322 ≤ s.baud.toNat ∧ s.baud.toNat ≤ 3392) ∨
        (4411 ≤ s.baud.toNat ∧ s.baud.toNat ≤ 44100))

/-- 40_tone_unit.md R87: `CLASSIFY` looks at the window at `RXPOS` without consuming it, or raises.
Where an INVALID leaves `SPB` is the model's choice between two texts of the spec (log 7). -/
def Obligations.ClassifyCommand : Prop :=
  ∀ s : State, s.params.ok = true →
    (s.baudOk = true → s.rxsCount.toNat ≤ s.params.rxsCapacity →
      s.rxpos.toNat + s.samplesPerBit ≤ s.rxsCount.toNat →
      ∃ t, exec .classify s = .next t ∧ Ended t .none false ∧ t.spb.toNat = s.samplesPerBit ∧
        t.result.value.toNat = (classifyAt s s.rxpos.toNat).toNat ∧ t.result.accept = false ∧
        t.xcount.toNat = crossingsAt s s.rxpos.toNat ∧
        HostSideKept s t ∧ TransmitKept s t ∧ ReceiveKept s t ∧ t.rxpos = s.rxpos) ∧
    (s.baudOk = true → s.rxsCount.toNat ≤ s.params.rxsCapacity →
      s.rxpos.toNat + s.samplesPerBit > s.rxsCount.toNat →
      ∃ t, exec .classify s = .next t ∧ Ended t .range false ∧ t.spb.toNat = s.samplesPerBit ∧ ResultKept s t ∧
        HostSideKept s t ∧ TransmitKept s t ∧ ReceiveKept s t ∧ t.rxpos = s.rxpos) ∧
    (s.baudOk = false ∨ s.rxsCount.toNat > s.params.rxsCapacity →
      ∃ t, exec .classify s = .next t ∧ Ended t .invalid false ∧ SpbAfterInvalid s t ∧ ResultKept s t ∧
        HostSideKept s t ∧ TransmitKept s t ∧ ReceiveKept s t ∧ t.rxpos = s.rxpos)

/-! ### FrameCodec -/

/-- 40_tone_unit.md R80 and 42_frame_codec.md R105: the configuration checks are the ranges of the rules, and a
checked configuration has at least one sample per bit and three windows per character. -/
def Obligations.ConfigurationChecks : Prop :=
  ∀ s : State,
    (s.baudOk = true ↔ 1 ≤ s.baud.toInt ∧ s.baud.toInt ≤ s.params.sampleRate) ∧
    (s.fmtOk = true ↔ (1 ≤ s.dataBits ∧ s.dataBits ≤ 8) ∧ 1 ≤ s.stopBits ∧
      (s.parityCode = 0#2 ∨ s.parityCode = 1#2 ∨ s.parityCode = 2#2)) ∧
    (s.baudOk = true → 1 ≤ s.samplesPerBit ∧ s.samplesPerBit = s.params.sampleRate / s.baud.toNat) ∧
    (s.fmtOk = true → 3 ≤ s.frameBits ∧ s.frameBits ≤ 265)

/-- 30_encoding.md R61: the windows of a character, by index. -/
def Obligations.CharacterWindows : Prop :=
  ∀ (s : State) (b : Byte), s.fmtOk = true →
    (charBits s b).length = s.frameBits ∧ (charBits s b)[0]? = some false ∧
    (∀ w, 1 ≤ w → w ≤ s.dataBits → (charBits s b)[w]? = some (b.getLsbD (w - 1))) ∧
    (s.parityCode = 1#2 → (charBits s b)[s.dataBits + 1]? = some (computeParity b .even)) ∧
    (s.parityCode = 2#2 → (charBits s b)[s.dataBits + 1]? = some (computeParity b .odd)) ∧
    (∀ w, s.dataBits + s.parityFlag + 1 ≤ w → w < s.frameBits → (charBits s b)[w]? = some true)

/-- Derived by the spec (43_modem_stream.md R122): sample `x` of the transmitted stream is sample `x mod spb` of the
window of bit `floor((x mod L) / spb)` of character `floor(x / L)`; with R84, a window depends on nothing else. -/
def Obligations.TransmittedSample : Prop :=
  ∀ (s : State) (bs : List Byte) (x : Nat), s.baudOk = true → s.fmtOk = true →
    (encodeStream s bs).length = bs.length * s.charLen ∧
    (x < bs.length * s.charLen → ∃ b bit, bs[x / s.charLen]? = some b ∧
      (charBits s b)[x % s.charLen / s.samplesPerBit]? = some bit ∧
      (encodeStream s bs)[x]? = some (toneSample s.params bit (x % s.samplesPerBit)))

/-- 42_frame_codec.md R108: `FRAME_ENC` appends one character at `TXS_COUNT`, or raises and leaves TXS alone.
Where an INVALID leaves `SPB` is the model's choice between two texts of the spec (log 7). -/
def Obligations.FrameEncCommand : Prop :=
  ∀ s : State, s.params.ok = true →
    (s.baudOk = true → s.fmtOk = true → s.txsCount.toNat + s.charLen ≤ s.params.txsCapacity →
      ∃ t, exec .frameEnc s = .next t ∧ Ended t .none false ∧ t.spb.toNat = s.samplesPerBit ∧
        t.txsCount.toNat = s.txsCount.toNat + s.charLen ∧
        TransmitWritten s t s.txsCount.toNat (frameEnc s s.argByte) ∧
        HostSideKept s t ∧ ReceiveKept s t ∧ ResultKept s t ∧ t.rxpos = s.rxpos) ∧
    (s.baudOk = true → s.fmtOk = true → s.txsCount.toNat + s.charLen > s.params.txsCapacity →
      ∃ t, exec .frameEnc s = .next t ∧ Ended t .alloc false ∧ t.spb.toNat = s.samplesPerBit ∧ TransmitKept s t ∧
        HostSideKept s t ∧ ReceiveKept s t ∧ ResultKept s t ∧ t.rxpos = s.rxpos) ∧
    (s.baudOk = false ∨ s.fmtOk = false →
      ∃ t, exec .frameEnc s = .next t ∧ Ended t .invalid false ∧ SpbAfterInvalid s t ∧ TransmitKept s t ∧
        HostSideKept s t ∧ ReceiveKept s t ∧ ResultKept s t ∧ t.rxpos = s.rxpos)

/-- 42_frame_codec.md R111: `FRAME_DEC` reads the character at `RXPOS`: accepted, it gives the byte whose bit `k` is
that of window `k + 1` and 0 above the data bits, and advances by `L`; rejected, it gives 0 and stays; or it raises.
Where an INVALID leaves `SPB` is the model's choice between two texts of the spec (log 7). -/
def Obligations.FrameDecCommand : Prop :=
  ∀ s : State, s.params.ok = true →
    (s.baudOk = true → s.fmtOk = true → s.rxsCount.toNat ≤ s.params.rxsCapacity →
      s.rxpos.toNat + s.charLen ≤ s.rxsCount.toNat → classifyAt s s.rxpos.toNat = false →
      ∃ t, exec .frameDec s = .next t ∧ Ended t .none false ∧ t.spb.toNat = s.samplesPerBit ∧
        t.result.accept = true ∧
        (∀ k, k < 8 → t.result.value.getLsbD k =
          (decide (k < s.dataBits) && classifyAt s (s.rxpos.toNat + (k + 1) * s.samplesPerBit))) ∧
        t.rxpos.toNat = s.rxpos.toNat + s.charLen ∧
        t.xcount.toNat = crossingsAt s (s.rxpos.toNat + s.dataBits * s.samplesPerBit) ∧
        HostSideKept s t ∧ TransmitKept s t ∧ ReceiveKept s t) ∧
    (s.baudOk = true → s.fmtOk = true → s.rxsCount.toNat ≤ s.params.rxsCapacity →
      s.rxpos.toNat + s.charLen ≤ s.rxsCount.toNat → classifyAt s s.rxpos.toNat = true →
      ∃ t, exec .frameDec s = .next t ∧ Ended t .none false ∧ t.spb.toNat = s.samplesPerBit ∧
        t.result = ⟨0#8, false⟩ ∧ t.rxpos = s.rxpos ∧ t.xcount.toNat = crossingsAt s s.rxpos.toNat ∧
        HostSideKept s t ∧ TransmitKept s t ∧ ReceiveKept s t) ∧
    (s.baudOk = true → s.fmtOk = true → s.rxsCount.toNat ≤ s.params.rxsCapacity →
      s.rxpos.toNat + s.charLen > s.rxsCount.toNat →
      ∃ t, exec .frameDec s = .next t ∧ Ended t .range false ∧ t.spb.toNat = s.samplesPerBit ∧ ResultKept s t ∧
        t.rxpos = s.rxpos ∧ HostSideKept s t ∧ TransmitKept s t ∧ ReceiveKept s t) ∧
    (s.baudOk = false ∨ s.fmtOk = false ∨ s.rxsCount.toNat > s.params.rxsCapacity →
      ∃ t, exec .frameDec s = .next t ∧ Ended t .invalid false ∧ SpbAfterInvalid s t ∧ ResultKept s t ∧
        t.rxpos = s.rxpos ∧ HostSideKept s t ∧ TransmitKept s t ∧ ReceiveKept s t)

/-! ### ModemStream -/

/-- 43_modem_stream.md R123: `ENCODE` leaves the whole stream of the payload in TXS from index 0, its count in
`TXS_COUNT`, and every other sample and register alone; or it raises, with `TXS_COUNT` 0 and no sample written.
Where an INVALID leaves `SPB` is the model's choice between two texts of the spec (log 7). -/
def Obligations.EncodeCommand : Prop :=
  ∀ s : State, s.params.ok = true →
    (s.baudOk = true → s.fmtOk = true → s.txbCount.toNat ≠ 0 → s.txbCount.toNat ≤ s.params.txbCapacity →
      s.txbCount.toNat * s.frameBits * s.samplesPerBit ≤ s.params.txsCapacity →
      ∃ t, exec .encode s = .next t ∧ Ended t .none false ∧ t.spb.toNat = s.samplesPerBit ∧
        t.txsCount.toNat = s.txbCount.toNat * s.frameBits * s.samplesPerBit ∧
        TransmitWritten s t 0 (encodeStream s (payload s)) ∧
        (payload s).length = s.txbCount.toNat ∧
        (∀ j (h : j < (payload s).length), (payload s)[j] = readByte s .txb j) ∧
        HostSideKept s t ∧ ReceiveKept s t ∧ ResultKept s t ∧ t.rxpos = s.rxpos) ∧
    (s.baudOk = true → s.fmtOk = true → s.txbCount.toNat ≠ 0 → s.txbCount.toNat ≤ s.params.txbCapacity →
      s.txbCount.toNat * s.frameBits * s.samplesPerBit > s.params.txsCapacity →
      ∃ t, exec .encode s = .next t ∧ Ended t .alloc false ∧ t.spb.toNat = s.samplesPerBit ∧ t.txsCount = 0#32 ∧
        (∀ a, readSample t .txs a = readSample s .txs a) ∧
        HostSideKept s t ∧ ReceiveKept s t ∧ ResultKept s t ∧ t.rxpos = s.rxpos) ∧
    (s.baudOk = false ∨ s.fmtOk = false ∨ s.txbCount.toNat = 0 ∨ s.txbCount.toNat > s.params.txbCapacity →
      ∃ t, exec .encode s = .next t ∧ Ended t .invalid false ∧ SpbAfterInvalid s t ∧ t.txsCount = 0#32 ∧
        (∀ a, readSample t .txs a = readSample s .txs a) ∧
        HostSideKept s t ∧ ReceiveKept s t ∧ ResultKept s t ∧ t.rxpos = s.rxpos)

/-- 43_modem_stream.md R124: the loop of `decode`, started anywhere inside the samples with enough fuel, does at each
position what the rule's loop does; `fuel` beyond that changes nothing. The byte of an accepted
character has the bit of window `k + 1` as bit `k`, and 0 above the data bits (42_frame_codec.md R109). -/
def Obligations.DecodeLoopFollowsTheRule : Prop :=
  ∀ (s : State) (pos fuel : Nat) (out : List Byte) (xc : Word), 1 ≤ s.charLen → pos ≤ s.rxsCount.toNat →
    s.rxsCount.toNat + 1 ≤ pos + fuel →
    (pos + s.charLen > s.rxsCount.toNat → decodeLoop s fuel pos out xc = ⟨out, pos, false, xc⟩) ∧
    (pos + s.charLen ≤ s.rxsCount.toNat → out.length = s.params.cap →
      decodeLoop s fuel pos out xc = ⟨out, pos, true, xc⟩) ∧
    (pos + s.charLen ≤ s.rxsCount.toNat → out.length ≠ s.params.cap → classifyAt s pos = true →
      decodeLoop s fuel pos out xc = decodeLoop s fuel (pos + 1) out (BitVec.ofNat 32 (crossingsAt s pos))) ∧
    (pos + s.charLen ≤ s.rxsCount.toNat → out.length ≠ s.params.cap → classifyAt s pos = false →
      ∃ byte : Byte,
        (∀ k, k < 8 → byte.getLsbD k =
          (decide (k < s.dataBits) && classifyAt s (pos + (k + 1) * s.samplesPerBit))) ∧
        decodeLoop s fuel pos out xc =
          decodeLoop s fuel (pos + s.charLen) (out ++ [byte])
            (BitVec.ofNat 32 (crossingsAt s (pos + s.dataBits * s.samplesPerBit))))

/-- 43_modem_stream.md R127: `DECODE` leaves the bytes of `decode(RXS, RXS_COUNT)` in RXB from index 0, their count,
the final position, the truncation flag and the last crossing count, and every other element and register alone; or it
raises INVALID, with an empty result and RXB untouched.
Where an INVALID leaves `SPB` is the model's choice between two texts of the spec (log 7). -/
def Obligations.DecodeCommand : Prop :=
  ∀ s : State, s.params.ok = true →
    (s.baudOk = true → s.fmtOk = true → s.rxsCount.toNat ≤ s.params.rxsCapacity →
      ∃ t, exec .decode s = .next t ∧ Ended t .none (decodeStream s).trunc ∧ t.spb.toNat = s.samplesPerBit ∧
        t.rxbCount.toNat = (decodeStream s).out.length ∧ t.rxpos.toNat = (decodeStream s).pos ∧
        t.xcount = (decodeStream s).xc ∧ ReceiveWritten s t (decodeStream s).out ∧
        (s.rxsCount.toNat < s.charLen →
          t.rxbCount = 0#32 ∧ t.rxpos = 0#32 ∧ t.xcount = s.xcount ∧ t.status.trunc = false) ∧
        t.result = s.result ∧ HostSideKept s t ∧ TransmitKept s t) ∧
    (s.baudOk = false ∨ s.fmtOk = false ∨ s.rxsCount.toNat > s.params.rxsCapacity →
      ∃ t, exec .decode s = .next t ∧ Ended t .invalid false ∧ SpbAfterInvalid s t ∧ t.rxbCount = 0#32 ∧ t.rxpos = 0#32 ∧
        (∀ a, readByte t .rxb a = readByte s .rxb a) ∧ ResultKept s t ∧ HostSideKept s t ∧ TransmitKept s t)

/-- Derived by the spec (43_modem_stream.md R129) with R128: where a receive pass ends and how much it can produce. -/
def Obligations.DecodeBoundsAndTruncation : Prop :=
  ∀ s t : State, s.params.ok = true → exec .decode s = .next t → t.status.err = .none →
    t.rxbCount.toNat ≤ s.params.cap ∧ t.rxpos.toNat ≤ s.rxsCount.toNat ∧
    t.rxbCount.toNat * s.charLen ≤ t.rxpos.toNat ∧
    (t.status.trunc = true ↔
      t.rxbCount.toNat = s.params.cap ∧ t.rxpos.toNat + s.charLen ≤ s.rxsCount.toNat) ∧
    (t.status.trunc = false → t.rxpos.toNat + s.charLen > s.rxsCount.toNat)

/-- Derived by the spec (43_modem_stream.md R130): samples of one sign are data: one byte 0x00 per `L` samples. -/
def Obligations.SilenceDecodesToZeroBytes : Prop :=
  ∀ (s : State) (b : Bool), s.params.ok = true → s.baudOk = true → s.fmtOk = true →
    s.rxsCount.toNat ≤ s.params.rxsCapacity →
    (∀ a, a < s.rxsCount.toNat → sign (readSample s .rxs a) = b) →
    ∃ t, exec .decode s = .next t ∧ t.status.err = .none ∧
      t.rxbCount.toNat = min (s.rxsCount.toNat / s.charLen) s.params.cap ∧
      t.rxpos.toNat = t.rxbCount.toNat * s.charLen ∧
      ∀ j, j < t.rxbCount.toNat → readByte t .rxb j = 0x00#8

/-- Derived by the spec (43_modem_stream.md R131): the round trip at the design rates. `ENCODE`, the loop-back and
`DECODE` give back the payload, cut to `CAP` bytes and to the data bits, when the core can hear its own mark tone, and
bytes 0x00 when it cannot. -/
def Obligations.LoopBackRoundTrip : Prop :=
  ∀ s : State, s.params.ok = true → DesignRates s.params → s.baudOk = true → s.fmtOk = true →
    s.txbCount.toNat ≠ 0 → s.txbCount.toNat ≤ s.params.txbCapacity →
    s.txbCount.toNat * s.charLen ≤ s.params.txsCapacity → s.txbCount.toNat * s.charLen ≤ s.params.rxsCapacity →
    ∃ s1 s2 s3, exec .encode s = .next s1 ∧ hostMove .loopback s1 = .next s2 ∧ exec .decode s2 = .next s3 ∧
      Ended s3 .none (decide (s.params.cap < s.txbCount.toNat)) ∧
      s3.rxbCount.toNat = min s.txbCount.toNat s.params.cap ∧
      s3.rxpos.toNat = min s.txbCount.toNat s.params.cap * s.charLen ∧
      ∀ j, j < min s.txbCount.toNat s.params.cap →
        (readByte s3 .rxb j).toNat =
          if deafLength s.samplesPerBit then 0 else (readByte s .txb j).toNat % 2 ^ s.dataBits

/-! ### The grain of the state machine -/

/-- 43_modem_stream.md R125: one turn of a running `DECODE` is one row of the table, the guards of `SEARCHING` in the
order listed; what a row that goes on does not list it leaves alone, but for the records of the classification that it
makes, `XCOUNT`, `XC` and `WI`, of which DecodeMachineRecordsEachCount speaks. -/
def Obligations.DecodeMachineFollowsTheTable : Prop :=
  ∀ s : State, Inv s → s.running = some .decode → s.host = [] → ∃ t, step s = .next t ∧
    (s.rxState = .searching → s.rxpos.toNat + s.charLen > s.rxsCount.toNat →
      Ended t .none false ∧ t.rxpos = s.rxpos ∧ ReceiveKept s t) ∧
    (s.rxState = .searching → s.rxpos.toNat + s.charLen ≤ s.rxsCount.toNat → s.rxbCount.toNat = s.params.cap →
      Ended t .none true ∧ t.rxpos = s.rxpos ∧ ReceiveKept s t) ∧
    (s.rxState = .searching → s.rxpos.toNat + s.charLen ≤ s.rxsCount.toNat → s.rxbCount.toNat ≠ s.params.cap →
      t.status = s.status ∧ t.running = s.running ∧ ReceiveKept s t ∧
      t.work.shift = s.work.shift ∧ t.work.kbit = s.work.kbit ∧ t.work.jstop = s.work.jstop ∧
      (classifyAt s s.rxpos.toNat = true → t.rxpos.toNat = s.rxpos.toNat + 1 ∧ t.rxState = .searching) ∧
      (classifyAt s s.rxpos.toNat = false → t.rxpos = s.rxpos ∧ t.rxState = .startConfirmed)) ∧
    (s.rxState = .startConfirmed → t.status = s.status ∧ t.running = s.running ∧ ReceiveKept s t ∧
      t.rxpos.toNat = s.rxpos.toNat + s.samplesPerBit ∧ t.work.shift = 0#8 ∧ t.work.kbit = 0#4 ∧
      t.work.jstop = s.work.jstop ∧ t.rxState = .data) ∧
    (s.rxState = .data → t.status = s.status ∧ t.running = s.running ∧ ReceiveKept s t ∧
      t.work.shift.getLsbD s.work.kbit.toNat = classifyAt s s.rxpos.toNat ∧
      (∀ k, k ≠ s.work.kbit.toNat → t.work.shift.getLsbD k = s.work.shift.getLsbD k) ∧
      t.rxpos.toNat = s.rxpos.toNat + s.samplesPerBit ∧ t.work.kbit.toNat = s.work.kbit.toNat + 1 ∧
      (s.work.kbit.toNat + 1 < s.dataBits → t.rxState = .data ∧ t.work.jstop = s.work.jstop) ∧
      (¬ s.work.kbit.toNat + 1 < s.dataBits → s.parityFlag = 1 →
        t.rxState = .parity ∧ t.work.jstop = s.work.jstop) ∧
      (¬ s.work.kbit.toNat + 1 < s.dataBits → s.parityFlag ≠ 1 → t.rxState = .stop ∧ t.work.jstop = 0#8)) ∧
    (s.rxState = .parity → t.status = s.status ∧ t.running = s.running ∧ ReceiveKept s t ∧
      t.rxpos.toNat = s.rxpos.toNat + s.samplesPerBit ∧ t.work.jstop = 0#8 ∧ t.work.shift = s.work.shift ∧
      t.work.kbit = s.work.kbit ∧ t.rxState = .stop) ∧
    (s.rxState = .stop → t.status = s.status ∧ t.running = s.running ∧
      t.rxpos.toNat = s.rxpos.toNat + s.samplesPerBit ∧ t.work.jstop.toNat = s.work.jstop.toNat + 1 ∧
      t.work.shift = s.work.shift ∧ t.work.kbit = s.work.kbit ∧
      (s.work.jstop.toNat + 1 < s.stopBits → ReceiveKept s t ∧ t.rxState = .stop) ∧
      (¬ s.work.jstop.toNat + 1 < s.stopBits →
        t.rxbCount.toNat = s.rxbCount.toNat + 1 ∧ readByte t .rxb s.rxbCount.toNat = s.work.shift ∧
        (∀ a, a ≠ s.rxbCount.toNat → readByte t .rxb a = readByte s .rxb a) ∧ t.rxState = .searching)) ∧
    t.spb = s.spb ∧ t.result = s.result ∧ HostSideKept s t ∧ TransmitKept s t

/-- Derived by the spec (43_modem_stream.md R126): the machine of R125, started by a `DECODE` that is only launched and
run turn by turn, ends in the very state that the command as one atomic transition gives (`launch` is log 1). -/
def Obligations.DecodeMachineAgreesWithLoop : Prop :=
  ∀ s : State, s.params.ok = true → s.status.busy = false → s.host = [.launch (encode .decode)] →
    ∃ k t, exec .decode { s with host := [] } = .next t ∧ Host.Core.run Sys2Proof.core k s = .next t

/-- 43_modem_stream.md R120, R123: the nested loops of `ENCODE`, run one sample a turn, end in the very state that the
command as one atomic transition gives (`launch` is log 1, one sample a turn log 17). -/
def Obligations.EncodeLoopsAgreeWithStream : Prop :=
  ∀ s : State, s.params.ok = true → s.status.busy = false → s.host = [.launch (encode .encode)] →
    ∃ k t, exec .encode { s with host := [] } = .next t ∧ Host.Core.run Sys2Proof.core k s = .next t

/-- The other six commands, launched, act in one turn of the core and end in the state of the atomic command (the
model's choice of one turn is log 17). -/
def Obligations.UnitCommandsActInOneTurn : Prop :=
  ∀ (s : State) (i : Instr), s.params.ok = true → s.status.busy = false → i ≠ .encode → i ≠ .decode →
    s.host = [.launch (encode i)] → Host.Core.run Sys2Proof.core 2 s = exec i { s with host := [] }

/-- Derived by the spec (43_modem_stream.md R120 and R129, "every command terminates"): a busy core that the host leaves
alone completes, from every state of the invariant. -/
def Obligations.BusyCoreAlwaysFinishes : Prop :=
  ∀ s : State, Inv s → s.status.busy = true → s.host = [] →
    ∃ k t, Host.Core.run Sys2Proof.core k s = .next t ∧ t.status.busy = false ∧ t.status.done = true

/-! ### The invariant -/

/-- The state after reset meets the invariant. -/
def Obligations.ResetMeetsTheInvariant : Prop := Inv State.reset

/-- Every step keeps the invariant: buffers in canonical form and inside their capacities, `RXB_COUNT ≤ CAP`,
`RX_STATE = IDLE` while idle, the positions and counters of a running command in range. -/
def Obligations.EveryStepKeepsTheInvariant : Prop :=
  ∀ s t : State, Inv s → step s = .next t → Inv t

/-! ### Layouts -/

/-- The words of `STATUS`, `RESULT` and `RX_STATE` bit by bit and code by code (10_state.md R14, R16, R22;
30_encoding.md R67, R68): where a field stands, what it holds, and that every other bit reads 0. -/
def Obligations.StatusWordsAreLaidOutAsTheRulesSay : Prop :=
  (∀ st : Status, st.toWord.getLsbD 0 = st.busy ∧ st.toWord.getLsbD 1 = st.done ∧ st.toWord.getLsbD 2 = st.trunc ∧
    st.toWord.getLsbD 3 = false ∧
    (st.toWord.extractLsb' 4 3).toNat =
      (match st.err with
      | .none => 0
      | .invalid => 1
      | .alloc => 2
      | .range => 3
      | .illCmd => 4) ∧
    (∀ k, 7 ≤ k → st.toWord.getLsbD k = false)) ∧
  (∀ r : ResultReg, r.toWord.extractLsb' 0 8 = r.value ∧ r.toWord.getLsbD 8 = r.accept ∧
    (∀ k, 9 ≤ k → r.toWord.getLsbD k = false)) ∧
  (∀ x : RxState, x.toWord.toNat =
    match x with
    | .idle => 0
    | .searching => 1
    | .startConfirmed => 2
    | .data => 3
    | .parity => 4
    | .stop => 5)

/-- The register map in numbers (10_state.md R29): what an aligned word read at each offset of the map returns. -/
def Obligations.RegisterMapInNumbers : Prop :=
  ∀ s : State,
    busRead s 0x00 4 = 0#32 ∧ busRead s 0x04 4 = s.status.toWord ∧ busRead s 0x08 4 = s.format ∧
    busRead s 0x0C 4 = s.baud ∧ busRead s 0x10 4 = s.arg ∧ busRead s 0x14 4 = s.result.toWord ∧
    busRead s 0x18 4 = s.xcount ∧ busRead s 0x1C 4 = s.spb ∧ busRead s 0x20 4 = s.txbCount ∧
    busRead s 0x24 4 = s.txsCount ∧ busRead s 0x28 4 = s.rxsCount ∧ busRead s 0x2C 4 = s.rxbCount ∧
    busRead s 0x30 4 = s.rxpos ∧ busRead s 0x34 4 = s.rxState.toWord ∧
    (s.params.ok = true →
      (busRead s 0x38 4).toNat = s.params.sampleRate ∧ (busRead s 0x3C 4).toNat = s.params.fSpace ∧
      (busRead s 0x40 4).toNat = s.params.fMark ∧ (busRead s 0x44 4).toNat = s.params.cap) ∧
    (∀ o, (busRead s o 4 ≠ 0#32 ∨ (∃ r, regAt o = some r)) → o % 4 = 0 ∧ o ≤ 0x44) ∧
    regAt 0x00 = some .cmd ∧ regAt 0x08 = some .format ∧ regAt 0x0C = some .baud ∧ regAt 0x10 = some .arg ∧
    regAt 0x20 = some .txbCount ∧ regAt 0x24 = some .txsCount ∧ regAt 0x28 = some .rxsCount ∧
    regAt 0x30 = some .rxpos

/-- Where the operand fields stand: `DATA_BITS` 3:0, `PARITY` 5:4, `STOP_BITS` 15:8 of `FORMAT` (10_state.md R11), the
byte `ARG[7:0]` and the bit `ARG[0]` (R15); with the examples of 30_encoding.md R65. -/
def Obligations.OperandFieldsStandWhereTheRulesSay : Prop :=
  (∀ s : State, s.dataBits = s.format.toNat % 16 ∧ s.parityCode.toNat = s.format.toNat / 16 % 4 ∧
    s.stopBits = s.format.toNat / 256 % 256 ∧ s.argByte.toNat = s.arg.toNat % 256 ∧
    s.argBit = decide (s.arg.toNat % 2 = 1)) ∧
  (∀ s : State, s.format = 0x00000108#32 → s.dataBits = 8 ∧ s.parityMode = none ∧ s.stopBits = 1) ∧
  (∀ s : State, s.format = 0x00000217#32 → s.dataBits = 7 ∧ s.parityMode = some .even ∧ s.stopBits = 2) ∧
  (∀ s : State, s.format = 0x00000227#32 → s.dataBits = 7 ∧ s.parityMode = some .odd ∧ s.stopBits = 2) ∧
  (∀ s : State, s.format = 0x00000128#32 → s.dataBits = 8 ∧ s.parityMode = some .odd ∧ s.stopBits = 1)

/-! ### The host's reads and copies of buffers -/

/-- What the host's buffer reads give and its copies do on an idle core (30_encoding.md R72, 20_memory.md R44, R50).
A read changes nothing but the model's `reply` (log 12). A copy gives the destination the samples that the source had
before it; `MOVS RXS <- TXS` copies the valid part of TXS to the start of RXS and `TXS_COUNT` to `RXS_COUNT`. -/
def Obligations.BufferReadsAndCopies : Prop :=
  ∀ (s : State) (rest : List HostAct), s.params.ok = true → s.status.busy = false →
    (∀ b i n, s.host = .readBytes b i n :: rest → i + n ≤ s.params.byteCapacity b →
      ∃ vs, step s = .next { s with host := rest, reply := .bytes vs } ∧ vs.length = n ∧
        ∀ k (h : k < vs.length), vs[k] = readByte s b (i + k)) ∧
    (∀ b i n, s.host = .readSamples b i n :: rest → i + n ≤ s.params.sampleCapacity b →
      ∃ vs, step s = .next { s with host := rest, reply := .samples vs } ∧ vs.length = n ∧
        ∀ k (h : k < vs.length), vs[k] = readSample s b (i + k)) ∧
    (∀ c i d j n, s.host = .moveSamples c i d j n :: rest → i + n ≤ s.params.sampleCapacity c →
      j + n ≤ s.params.sampleCapacity d →
      ∃ t, step s = .next t ∧ (∀ k, k < n → readSample t d (j + k) = readSample s c (i + k)) ∧
        (∀ b a, (b ≠ d ∨ a < j ∨ j + n ≤ a) → readSample t b a = readSample s b a) ∧
        (∀ b a, readByte t b a = readByte s b a) ∧ (∀ r, readReg t r = readReg s r) ∧ t.host = rest) ∧
    (s.host = .loopback :: rest → s.txsCount.toNat ≤ s.params.txsCapacity →
      s.txsCount.toNat ≤ s.params.rxsCapacity →
      ∃ t, step s = .next t ∧ (∀ k, k < s.txsCount.toNat → readSample t .rxs k = readSample s .txs k) ∧
        (∀ a, s.txsCount.toNat ≤ a → readSample t .rxs a = readSample s .rxs a) ∧
        (∀ a, readSample t .txs a = readSample s .txs a) ∧ (∀ b a, readByte t b a = readByte s b a) ∧
        t.rxsCount = s.txsCount ∧ (∀ r, r ≠ .rxsCount → readReg t r = readReg s r) ∧ t.host = rest)

/-! ### The records of a classification, and `SPB` -/

/-- What becomes of `XCOUNT`, `XC` and `WI` in each row of the machine of `DECODE`: a row that classifies leaves the
count of its window in `XC`, copied to `XCOUNT` (10_state.md R17, R25), and the others leave all three alone; the row that
ends the command leaves `XCOUNT` alone (the other two are then unspecified, log 6). That a classifying row ends with
`WI = spb` is the model's choice (log 17). -/
def Obligations.DecodeMachineRecordsEachCount : Prop :=
  ∀ s : State, Inv s → s.running = some .decode → s.host = [] → ∃ t, step s = .next t ∧
    ((s.rxState = .searching ∧ s.rxpos.toNat + s.charLen ≤ s.rxsCount.toNat ∧ s.rxbCount.toNat ≠ s.params.cap) ∨
        s.rxState = .data →
      t.xcount.toNat = crossingsAt s s.rxpos.toNat ∧ t.work.xc = crossingsAt s s.rxpos.toNat ∧
        t.work.wi = s.samplesPerBit) ∧
    (s.rxState = .searching ∧ (s.rxpos.toNat + s.charLen > s.rxsCount.toNat ∨ s.rxbCount.toNat = s.params.cap) →
      t.xcount = s.xcount) ∧
    (s.rxState = .startConfirmed ∨ s.rxState = .parity ∨ s.rxState = .stop →
      t.xcount = s.xcount ∧ t.work.xc = s.work.xc ∧ t.work.wi = s.work.wi)

/-- `SPB` (10_state.md R18), on an instance that latches it when `baud_ok` holds (the reading of R18 and 40_tone_unit.md
R80, log 7): every command but `NOP` and `PARITY` leaves `floor(SAMPLE_RATE / BAUD)` there when `baud_ok` holds, however
it ends, and leaves it alone when not. -/
def Obligations.SpbIsWrittenWheneverTheRateIsLegal : Prop :=
  ∀ (i : Instr) (s : State), s.params.ok = true → i ≠ .nop → i ≠ .parity →
    (s.params.spbTiming = .whenBaudOk → s.baudOk = true →
      ∃ t, exec i s = .next t ∧ t.spb.toNat = s.params.sampleRate / s.baud.toNat) ∧
    (s.baudOk = false → ∃ t, exec i s = .next t ∧ t.spb = s.spb)
end

