-- ==== Sys2Proof/Laws/State.lean ====
section
/-! SUPPORT. What each update of the state does to each field: true by definition, for the simplifier. -/

namespace Sys2Proof.Machine

variable (s : State)

@[simp] theorem accept_params : (accept s).params = s.params := rfl
@[simp] theorem accept_format : (accept s).format = s.format := rfl
@[simp] theorem accept_baud : (accept s).baud = s.baud := rfl
@[simp] theorem accept_status : (accept s).status = ⟨true, false, false, .none⟩ := rfl
@[simp] theorem accept_arg : (accept s).arg = s.arg := rfl
@[simp] theorem accept_result : (accept s).result = s.result := rfl
@[simp] theorem accept_xcount : (accept s).xcount = s.xcount := rfl
@[simp] theorem accept_spb : (accept s).spb = s.spb := rfl
@[simp] theorem accept_txbCount : (accept s).txbCount = s.txbCount := rfl
@[simp] theorem accept_txsCount : (accept s).txsCount = s.txsCount := rfl
@[simp] theorem accept_rxsCount : (accept s).rxsCount = s.rxsCount := rfl
@[simp] theorem accept_rxbCount : (accept s).rxbCount = s.rxbCount := rfl
@[simp] theorem accept_rxpos : (accept s).rxpos = s.rxpos := rfl
@[simp] theorem accept_rxState : (accept s).rxState = s.rxState := rfl
@[simp] theorem accept_work : (accept s).work = s.work := rfl
@[simp] theorem accept_mem : (accept s).mem = s.mem := rfl
@[simp] theorem accept_running : (accept s).running = s.running := rfl
@[simp] theorem accept_host : (accept s).host = s.host := rfl
@[simp] theorem accept_reply : (accept s).reply = s.reply := rfl
@[simp] theorem accept_epoch : (accept s).epoch = s.epoch := rfl
@[simp] theorem accept_draws : (accept s).draws = s.draws := rfl

@[simp] theorem raise_params (e : ErrCode) : (raise e s).params = s.params := rfl
@[simp] theorem raise_format (e : ErrCode) : (raise e s).format = s.format := rfl
@[simp] theorem raise_baud (e : ErrCode) : (raise e s).baud = s.baud := rfl
@[simp] theorem raise_status (e : ErrCode) : (raise e s).status = { s.status with err := e } := rfl
@[simp] theorem raise_arg (e : ErrCode) : (raise e s).arg = s.arg := rfl
@[simp] theorem raise_result (e : ErrCode) : (raise e s).result = s.result := rfl
@[simp] theorem raise_xcount (e : ErrCode) : (raise e s).xcount = s.xcount := rfl
@[simp] theorem raise_spb (e : ErrCode) : (raise e s).spb = s.spb := rfl
@[simp] theorem raise_txbCount (e : ErrCode) : (raise e s).txbCount = s.txbCount := rfl
@[simp] theorem raise_txsCount (e : ErrCode) : (raise e s).txsCount = s.txsCount := rfl
@[simp] theorem raise_rxsCount (e : ErrCode) : (raise e s).rxsCount = s.rxsCount := rfl
@[simp] theorem raise_rxbCount (e : ErrCode) : (raise e s).rxbCount = s.rxbCount := rfl
@[simp] theorem raise_rxpos (e : ErrCode) : (raise e s).rxpos = s.rxpos := rfl
@[simp] theorem raise_rxState (e : ErrCode) : (raise e s).rxState = s.rxState := rfl
@[simp] theorem raise_work (e : ErrCode) : (raise e s).work = s.work := rfl
@[simp] theorem raise_mem (e : ErrCode) : (raise e s).mem = s.mem := rfl
@[simp] theorem raise_running (e : ErrCode) : (raise e s).running = s.running := rfl
@[simp] theorem raise_host (e : ErrCode) : (raise e s).host = s.host := rfl
@[simp] theorem raise_reply (e : ErrCode) : (raise e s).reply = s.reply := rfl
@[simp] theorem raise_epoch (e : ErrCode) : (raise e s).epoch = s.epoch := rfl
@[simp] theorem raise_draws (e : ErrCode) : (raise e s).draws = s.draws := rfl

@[simp] theorem setTrunc_params (t : Bool) : (setTrunc t s).params = s.params := rfl
@[simp] theorem setTrunc_format (t : Bool) : (setTrunc t s).format = s.format := rfl
@[simp] theorem setTrunc_baud (t : Bool) : (setTrunc t s).baud = s.baud := rfl
@[simp] theorem setTrunc_status (t : Bool) : (setTrunc t s).status = { s.status with trunc := t } := rfl
@[simp] theorem setTrunc_arg (t : Bool) : (setTrunc t s).arg = s.arg := rfl
@[simp] theorem setTrunc_result (t : Bool) : (setTrunc t s).result = s.result := rfl
@[simp] theorem setTrunc_xcount (t : Bool) : (setTrunc t s).xcount = s.xcount := rfl
@[simp] theorem setTrunc_spb (t : Bool) : (setTrunc t s).spb = s.spb := rfl
@[simp] theorem setTrunc_txbCount (t : Bool) : (setTrunc t s).txbCount = s.txbCount := rfl
@[simp] theorem setTrunc_txsCount (t : Bool) : (setTrunc t s).txsCount = s.txsCount := rfl
@[simp] theorem setTrunc_rxsCount (t : Bool) : (setTrunc t s).rxsCount = s.rxsCount := rfl
@[simp] theorem setTrunc_rxbCount (t : Bool) : (setTrunc t s).rxbCount = s.rxbCount := rfl
@[simp] theorem setTrunc_rxpos (t : Bool) : (setTrunc t s).rxpos = s.rxpos := rfl
@[simp] theorem setTrunc_rxState (t : Bool) : (setTrunc t s).rxState = s.rxState := rfl
@[simp] theorem setTrunc_work (t : Bool) : (setTrunc t s).work = s.work := rfl
@[simp] theorem setTrunc_mem (t : Bool) : (setTrunc t s).mem = s.mem := rfl
@[simp] theorem setTrunc_running (t : Bool) : (setTrunc t s).running = s.running := rfl
@[simp] theorem setTrunc_host (t : Bool) : (setTrunc t s).host = s.host := rfl
@[simp] theorem setTrunc_reply (t : Bool) : (setTrunc t s).reply = s.reply := rfl
@[simp] theorem setTrunc_epoch (t : Bool) : (setTrunc t s).epoch = s.epoch := rfl
@[simp] theorem setTrunc_draws (t : Bool) : (setTrunc t s).draws = s.draws := rfl

@[simp] theorem complete_params : (complete s).params = s.params := rfl
@[simp] theorem complete_format : (complete s).format = s.format := rfl
@[simp] theorem complete_baud : (complete s).baud = s.baud := rfl
@[simp] theorem complete_status : (complete s).status = { s.status with busy := false, done := true } := rfl
@[simp] theorem complete_arg : (complete s).arg = s.arg := rfl
@[simp] theorem complete_result : (complete s).result = s.result := rfl
@[simp] theorem complete_xcount : (complete s).xcount = s.xcount := rfl
@[simp] theorem complete_spb : (complete s).spb = s.spb := rfl
@[simp] theorem complete_txbCount : (complete s).txbCount = s.txbCount := rfl
@[simp] theorem complete_txsCount : (complete s).txsCount = s.txsCount := rfl
@[simp] theorem complete_rxsCount : (complete s).rxsCount = s.rxsCount := rfl
@[simp] theorem complete_rxbCount : (complete s).rxbCount = s.rxbCount := rfl
@[simp] theorem complete_rxpos : (complete s).rxpos = s.rxpos := rfl
@[simp] theorem complete_rxState : (complete s).rxState = .idle := rfl
@[simp] theorem complete_work : (complete s).work = Work.drawn s.draws := rfl
@[simp] theorem complete_mem : (complete s).mem = s.mem := rfl
@[simp] theorem complete_running : (complete s).running = none := rfl
@[simp] theorem complete_host : (complete s).host = s.host := rfl
@[simp] theorem complete_reply : (complete s).reply = s.reply := rfl
@[simp] theorem complete_epoch : (complete s).epoch = s.epoch := rfl
@[simp] theorem complete_draws : (complete s).draws = s.draws + 1 := rfl

@[simp] theorem latchSpb_params : (latchSpb s).params = s.params := rfl
@[simp] theorem latchSpb_format : (latchSpb s).format = s.format := rfl
@[simp] theorem latchSpb_baud : (latchSpb s).baud = s.baud := rfl
@[simp] theorem latchSpb_status : (latchSpb s).status = s.status := rfl
@[simp] theorem latchSpb_arg : (latchSpb s).arg = s.arg := rfl
@[simp] theorem latchSpb_result : (latchSpb s).result = s.result := rfl
@[simp] theorem latchSpb_xcount : (latchSpb s).xcount = s.xcount := rfl
@[simp] theorem latchSpb_spb : (latchSpb s).spb = BitVec.ofNat 32 s.samplesPerBit := rfl
@[simp] theorem latchSpb_txbCount : (latchSpb s).txbCount = s.txbCount := rfl
@[simp] theorem latchSpb_txsCount : (latchSpb s).txsCount = s.txsCount := rfl
@[simp] theorem latchSpb_rxsCount : (latchSpb s).rxsCount = s.rxsCount := rfl
@[simp] theorem latchSpb_rxbCount : (latchSpb s).rxbCount = s.rxbCount := rfl
@[simp] theorem latchSpb_rxpos : (latchSpb s).rxpos = s.rxpos := rfl
@[simp] theorem latchSpb_rxState : (latchSpb s).rxState = s.rxState := rfl
@[simp] theorem latchSpb_work : (latchSpb s).work = s.work := rfl
@[simp] theorem latchSpb_mem : (latchSpb s).mem = s.mem := rfl
@[simp] theorem latchSpb_running : (latchSpb s).running = s.running := rfl
@[simp] theorem latchSpb_host : (latchSpb s).host = s.host := rfl
@[simp] theorem latchSpb_reply : (latchSpb s).reply = s.reply := rfl
@[simp] theorem latchSpb_epoch : (latchSpb s).epoch = s.epoch := rfl
@[simp] theorem latchSpb_draws : (latchSpb s).draws = s.draws := rfl

@[simp] theorem latchSpbOnInvalid_params : (latchSpbOnInvalid s).params = s.params := rfl
@[simp] theorem latchSpbOnInvalid_format : (latchSpbOnInvalid s).format = s.format := rfl
@[simp] theorem latchSpbOnInvalid_baud : (latchSpbOnInvalid s).baud = s.baud := rfl
@[simp] theorem latchSpbOnInvalid_status : (latchSpbOnInvalid s).status = s.status := rfl
@[simp] theorem latchSpbOnInvalid_arg : (latchSpbOnInvalid s).arg = s.arg := rfl
@[simp] theorem latchSpbOnInvalid_result : (latchSpbOnInvalid s).result = s.result := rfl
@[simp] theorem latchSpbOnInvalid_xcount : (latchSpbOnInvalid s).xcount = s.xcount := rfl
@[simp] theorem latchSpbOnInvalid_spb : (latchSpbOnInvalid s).spb = (if s.params.spbTiming = .whenBaudOk ∧ s.baudOk = true then BitVec.ofNat 32 s.samplesPerBit else s.spb) := rfl
@[simp] theorem latchSpbOnInvalid_txbCount : (latchSpbOnInvalid s).txbCount = s.txbCount := rfl
@[simp] theorem latchSpbOnInvalid_txsCount : (latchSpbOnInvalid s).txsCount = s.txsCount := rfl
@[simp] theorem latchSpbOnInvalid_rxsCount : (latchSpbOnInvalid s).rxsCount = s.rxsCount := rfl
@[simp] theorem latchSpbOnInvalid_rxbCount : (latchSpbOnInvalid s).rxbCount = s.rxbCount := rfl
@[simp] theorem latchSpbOnInvalid_rxpos : (latchSpbOnInvalid s).rxpos = s.rxpos := rfl
@[simp] theorem latchSpbOnInvalid_rxState : (latchSpbOnInvalid s).rxState = s.rxState := rfl
@[simp] theorem latchSpbOnInvalid_work : (latchSpbOnInvalid s).work = s.work := rfl
@[simp] theorem latchSpbOnInvalid_mem : (latchSpbOnInvalid s).mem = s.mem := rfl
@[simp] theorem latchSpbOnInvalid_running : (latchSpbOnInvalid s).running = s.running := rfl
@[simp] theorem latchSpbOnInvalid_host : (latchSpbOnInvalid s).host = s.host := rfl
@[simp] theorem latchSpbOnInvalid_reply : (latchSpbOnInvalid s).reply = s.reply := rfl
@[simp] theorem latchSpbOnInvalid_epoch : (latchSpbOnInvalid s).epoch = s.epoch := rfl
@[simp] theorem latchSpbOnInvalid_draws : (latchSpbOnInvalid s).draws = s.draws := rfl

@[simp] theorem setXcount_params (c : Nat) : (setXcount c s).params = s.params := rfl
@[simp] theorem setXcount_format (c : Nat) : (setXcount c s).format = s.format := rfl
@[simp] theorem setXcount_baud (c : Nat) : (setXcount c s).baud = s.baud := rfl
@[simp] theorem setXcount_status (c : Nat) : (setXcount c s).status = s.status := rfl
@[simp] theorem setXcount_arg (c : Nat) : (setXcount c s).arg = s.arg := rfl
@[simp] theorem setXcount_result (c : Nat) : (setXcount c s).result = s.result := rfl
@[simp] theorem setXcount_xcount (c : Nat) : (setXcount c s).xcount = BitVec.ofNat 32 c := rfl
@[simp] theorem setXcount_spb (c : Nat) : (setXcount c s).spb = s.spb := rfl
@[simp] theorem setXcount_txbCount (c : Nat) : (setXcount c s).txbCount = s.txbCount := rfl
@[simp] theorem setXcount_txsCount (c : Nat) : (setXcount c s).txsCount = s.txsCount := rfl
@[simp] theorem setXcount_rxsCount (c : Nat) : (setXcount c s).rxsCount = s.rxsCount := rfl
@[simp] theorem setXcount_rxbCount (c : Nat) : (setXcount c s).rxbCount = s.rxbCount := rfl
@[simp] theorem setXcount_rxpos (c : Nat) : (setXcount c s).rxpos = s.rxpos := rfl
@[simp] theorem setXcount_rxState (c : Nat) : (setXcount c s).rxState = s.rxState := rfl
@[simp] theorem setXcount_work (c : Nat) : (setXcount c s).work = s.work := rfl
@[simp] theorem setXcount_mem (c : Nat) : (setXcount c s).mem = s.mem := rfl
@[simp] theorem setXcount_running (c : Nat) : (setXcount c s).running = s.running := rfl
@[simp] theorem setXcount_host (c : Nat) : (setXcount c s).host = s.host := rfl
@[simp] theorem setXcount_reply (c : Nat) : (setXcount c s).reply = s.reply := rfl
@[simp] theorem setXcount_epoch (c : Nat) : (setXcount c s).epoch = s.epoch := rfl
@[simp] theorem setXcount_draws (c : Nat) : (setXcount c s).draws = s.draws := rfl

@[simp] theorem setResult_params (v : Byte) (a : Bool) : (setResult v a s).params = s.params := rfl
@[simp] theorem setResult_format (v : Byte) (a : Bool) : (setResult v a s).format = s.format := rfl
@[simp] theorem setResult_baud (v : Byte) (a : Bool) : (setResult v a s).baud = s.baud := rfl
@[simp] theorem setResult_status (v : Byte) (a : Bool) : (setResult v a s).status = s.status := rfl
@[simp] theorem setResult_arg (v : Byte) (a : Bool) : (setResult v a s).arg = s.arg := rfl
@[simp] theorem setResult_result (v : Byte) (a : Bool) : (setResult v a s).result = ⟨v, a⟩ := rfl
@[simp] theorem setResult_xcount (v : Byte) (a : Bool) : (setResult v a s).xcount = s.xcount := rfl
@[simp] theorem setResult_spb (v : Byte) (a : Bool) : (setResult v a s).spb = s.spb := rfl
@[simp] theorem setResult_txbCount (v : Byte) (a : Bool) : (setResult v a s).txbCount = s.txbCount := rfl
@[simp] theorem setResult_txsCount (v : Byte) (a : Bool) : (setResult v a s).txsCount = s.txsCount := rfl
@[simp] theorem setResult_rxsCount (v : Byte) (a : Bool) : (setResult v a s).rxsCount = s.rxsCount := rfl
@[simp] theorem setResult_rxbCount (v : Byte) (a : Bool) : (setResult v a s).rxbCount = s.rxbCount := rfl
@[simp] theorem setResult_rxpos (v : Byte) (a : Bool) : (setResult v a s).rxpos = s.rxpos := rfl
@[simp] theorem setResult_rxState (v : Byte) (a : Bool) : (setResult v a s).rxState = s.rxState := rfl
@[simp] theorem setResult_work (v : Byte) (a : Bool) : (setResult v a s).work = s.work := rfl
@[simp] theorem setResult_mem (v : Byte) (a : Bool) : (setResult v a s).mem = s.mem := rfl
@[simp] theorem setResult_running (v : Byte) (a : Bool) : (setResult v a s).running = s.running := rfl
@[simp] theorem setResult_host (v : Byte) (a : Bool) : (setResult v a s).host = s.host := rfl
@[simp] theorem setResult_reply (v : Byte) (a : Bool) : (setResult v a s).reply = s.reply := rfl
@[simp] theorem setResult_epoch (v : Byte) (a : Bool) : (setResult v a s).epoch = s.epoch := rfl
@[simp] theorem setResult_draws (v : Byte) (a : Bool) : (setResult v a s).draws = s.draws := rfl

@[simp] theorem setRxpos_params (p : Nat) : (setRxpos p s).params = s.params := rfl
@[simp] theorem setRxpos_format (p : Nat) : (setRxpos p s).format = s.format := rfl
@[simp] theorem setRxpos_baud (p : Nat) : (setRxpos p s).baud = s.baud := rfl
@[simp] theorem setRxpos_status (p : Nat) : (setRxpos p s).status = s.status := rfl
@[simp] theorem setRxpos_arg (p : Nat) : (setRxpos p s).arg = s.arg := rfl
@[simp] theorem setRxpos_result (p : Nat) : (setRxpos p s).result = s.result := rfl
@[simp] theorem setRxpos_xcount (p : Nat) : (setRxpos p s).xcount = s.xcount := rfl
@[simp] theorem setRxpos_spb (p : Nat) : (setRxpos p s).spb = s.spb := rfl
@[simp] theorem setRxpos_txbCount (p : Nat) : (setRxpos p s).txbCount = s.txbCount := rfl
@[simp] theorem setRxpos_txsCount (p : Nat) : (setRxpos p s).txsCount = s.txsCount := rfl
@[simp] theorem setRxpos_rxsCount (p : Nat) : (setRxpos p s).rxsCount = s.rxsCount := rfl
@[simp] theorem setRxpos_rxbCount (p : Nat) : (setRxpos p s).rxbCount = s.rxbCount := rfl
@[simp] theorem setRxpos_rxpos (p : Nat) : (setRxpos p s).rxpos = BitVec.ofNat 32 p := rfl
@[simp] theorem setRxpos_rxState (p : Nat) : (setRxpos p s).rxState = s.rxState := rfl
@[simp] theorem setRxpos_work (p : Nat) : (setRxpos p s).work = s.work := rfl
@[simp] theorem setRxpos_mem (p : Nat) : (setRxpos p s).mem = s.mem := rfl
@[simp] theorem setRxpos_running (p : Nat) : (setRxpos p s).running = s.running := rfl
@[simp] theorem setRxpos_host (p : Nat) : (setRxpos p s).host = s.host := rfl
@[simp] theorem setRxpos_reply (p : Nat) : (setRxpos p s).reply = s.reply := rfl
@[simp] theorem setRxpos_epoch (p : Nat) : (setRxpos p s).epoch = s.epoch := rfl
@[simp] theorem setRxpos_draws (p : Nat) : (setRxpos p s).draws = s.draws := rfl

@[simp] theorem setTxsCount_params (n : Nat) : (setTxsCount n s).params = s.params := rfl
@[simp] theorem setTxsCount_format (n : Nat) : (setTxsCount n s).format = s.format := rfl
@[simp] theorem setTxsCount_baud (n : Nat) : (setTxsCount n s).baud = s.baud := rfl
@[simp] theorem setTxsCount_status (n : Nat) : (setTxsCount n s).status = s.status := rfl
@[simp] theorem setTxsCount_arg (n : Nat) : (setTxsCount n s).arg = s.arg := rfl
@[simp] theorem setTxsCount_result (n : Nat) : (setTxsCount n s).result = s.result := rfl
@[simp] theorem setTxsCount_xcount (n : Nat) : (setTxsCount n s).xcount = s.xcount := rfl
@[simp] theorem setTxsCount_spb (n : Nat) : (setTxsCount n s).spb = s.spb := rfl
@[simp] theorem setTxsCount_txbCount (n : Nat) : (setTxsCount n s).txbCount = s.txbCount := rfl
@[simp] theorem setTxsCount_txsCount (n : Nat) : (setTxsCount n s).txsCount = BitVec.ofNat 32 n := rfl
@[simp] theorem setTxsCount_rxsCount (n : Nat) : (setTxsCount n s).rxsCount = s.rxsCount := rfl
@[simp] theorem setTxsCount_rxbCount (n : Nat) : (setTxsCount n s).rxbCount = s.rxbCount := rfl
@[simp] theorem setTxsCount_rxpos (n : Nat) : (setTxsCount n s).rxpos = s.rxpos := rfl
@[simp] theorem setTxsCount_rxState (n : Nat) : (setTxsCount n s).rxState = s.rxState := rfl
@[simp] theorem setTxsCount_work (n : Nat) : (setTxsCount n s).work = s.work := rfl
@[simp] theorem setTxsCount_mem (n : Nat) : (setTxsCount n s).mem = s.mem := rfl
@[simp] theorem setTxsCount_running (n : Nat) : (setTxsCount n s).running = s.running := rfl
@[simp] theorem setTxsCount_host (n : Nat) : (setTxsCount n s).host = s.host := rfl
@[simp] theorem setTxsCount_reply (n : Nat) : (setTxsCount n s).reply = s.reply := rfl
@[simp] theorem setTxsCount_epoch (n : Nat) : (setTxsCount n s).epoch = s.epoch := rfl
@[simp] theorem setTxsCount_draws (n : Nat) : (setTxsCount n s).draws = s.draws := rfl

@[simp] theorem setRxbCount_params (n : Nat) : (setRxbCount n s).params = s.params := rfl
@[simp] theorem setRxbCount_format (n : Nat) : (setRxbCount n s).format = s.format := rfl
@[simp] theorem setRxbCount_baud (n : Nat) : (setRxbCount n s).baud = s.baud := rfl
@[simp] theorem setRxbCount_status (n : Nat) : (setRxbCount n s).status = s.status := rfl
@[simp] theorem setRxbCount_arg (n : Nat) : (setRxbCount n s).arg = s.arg := rfl
@[simp] theorem setRxbCount_result (n : Nat) : (setRxbCount n s).result = s.result := rfl
@[simp] theorem setRxbCount_xcount (n : Nat) : (setRxbCount n s).xcount = s.xcount := rfl
@[simp] theorem setRxbCount_spb (n : Nat) : (setRxbCount n s).spb = s.spb := rfl
@[simp] theorem setRxbCount_txbCount (n : Nat) : (setRxbCount n s).txbCount = s.txbCount := rfl
@[simp] theorem setRxbCount_txsCount (n : Nat) : (setRxbCount n s).txsCount = s.txsCount := rfl
@[simp] theorem setRxbCount_rxsCount (n : Nat) : (setRxbCount n s).rxsCount = s.rxsCount := rfl
@[simp] theorem setRxbCount_rxbCount (n : Nat) : (setRxbCount n s).rxbCount = BitVec.ofNat 32 n := rfl
@[simp] theorem setRxbCount_rxpos (n : Nat) : (setRxbCount n s).rxpos = s.rxpos := rfl
@[simp] theorem setRxbCount_rxState (n : Nat) : (setRxbCount n s).rxState = s.rxState := rfl
@[simp] theorem setRxbCount_work (n : Nat) : (setRxbCount n s).work = s.work := rfl
@[simp] theorem setRxbCount_mem (n : Nat) : (setRxbCount n s).mem = s.mem := rfl
@[simp] theorem setRxbCount_running (n : Nat) : (setRxbCount n s).running = s.running := rfl
@[simp] theorem setRxbCount_host (n : Nat) : (setRxbCount n s).host = s.host := rfl
@[simp] theorem setRxbCount_reply (n : Nat) : (setRxbCount n s).reply = s.reply := rfl
@[simp] theorem setRxbCount_epoch (n : Nat) : (setRxbCount n s).epoch = s.epoch := rfl
@[simp] theorem setRxbCount_draws (n : Nat) : (setRxbCount n s).draws = s.draws := rfl

@[simp] theorem setRxState_params (x : RxState) : (setRxState x s).params = s.params := rfl
@[simp] theorem setRxState_format (x : RxState) : (setRxState x s).format = s.format := rfl
@[simp] theorem setRxState_baud (x : RxState) : (setRxState x s).baud = s.baud := rfl
@[simp] theorem setRxState_status (x : RxState) : (setRxState x s).status = s.status := rfl
@[simp] theorem setRxState_arg (x : RxState) : (setRxState x s).arg = s.arg := rfl
@[simp] theorem setRxState_result (x : RxState) : (setRxState x s).result = s.result := rfl
@[simp] theorem setRxState_xcount (x : RxState) : (setRxState x s).xcount = s.xcount := rfl
@[simp] theorem setRxState_spb (x : RxState) : (setRxState x s).spb = s.spb := rfl
@[simp] theorem setRxState_txbCount (x : RxState) : (setRxState x s).txbCount = s.txbCount := rfl
@[simp] theorem setRxState_txsCount (x : RxState) : (setRxState x s).txsCount = s.txsCount := rfl
@[simp] theorem setRxState_rxsCount (x : RxState) : (setRxState x s).rxsCount = s.rxsCount := rfl
@[simp] theorem setRxState_rxbCount (x : RxState) : (setRxState x s).rxbCount = s.rxbCount := rfl
@[simp] theorem setRxState_rxpos (x : RxState) : (setRxState x s).rxpos = s.rxpos := rfl
@[simp] theorem setRxState_rxState (x : RxState) : (setRxState x s).rxState = x := rfl
@[simp] theorem setRxState_work (x : RxState) : (setRxState x s).work = s.work := rfl
@[simp] theorem setRxState_mem (x : RxState) : (setRxState x s).mem = s.mem := rfl
@[simp] theorem setRxState_running (x : RxState) : (setRxState x s).running = s.running := rfl
@[simp] theorem setRxState_host (x : RxState) : (setRxState x s).host = s.host := rfl
@[simp] theorem setRxState_reply (x : RxState) : (setRxState x s).reply = s.reply := rfl
@[simp] theorem setRxState_epoch (x : RxState) : (setRxState x s).epoch = s.epoch := rfl
@[simp] theorem setRxState_draws (x : RxState) : (setRxState x s).draws = s.draws := rfl

@[simp] theorem setWork_params (w : Work) : (setWork w s).params = s.params := rfl
@[simp] theorem setWork_format (w : Work) : (setWork w s).format = s.format := rfl
@[simp] theorem setWork_baud (w : Work) : (setWork w s).baud = s.baud := rfl
@[simp] theorem setWork_status (w : Work) : (setWork w s).status = s.status := rfl
@[simp] theorem setWork_arg (w : Work) : (setWork w s).arg = s.arg := rfl
@[simp] theorem setWork_result (w : Work) : (setWork w s).result = s.result := rfl
@[simp] theorem setWork_xcount (w : Work) : (setWork w s).xcount = s.xcount := rfl
@[simp] theorem setWork_spb (w : Work) : (setWork w s).spb = s.spb := rfl
@[simp] theorem setWork_txbCount (w : Work) : (setWork w s).txbCount = s.txbCount := rfl
@[simp] theorem setWork_txsCount (w : Work) : (setWork w s).txsCount = s.txsCount := rfl
@[simp] theorem setWork_rxsCount (w : Work) : (setWork w s).rxsCount = s.rxsCount := rfl
@[simp] theorem setWork_rxbCount (w : Work) : (setWork w s).rxbCount = s.rxbCount := rfl
@[simp] theorem setWork_rxpos (w : Work) : (setWork w s).rxpos = s.rxpos := rfl
@[simp] theorem setWork_rxState (w : Work) : (setWork w s).rxState = s.rxState := rfl
@[simp] theorem setWork_work (w : Work) : (setWork w s).work = w := rfl
@[simp] theorem setWork_mem (w : Work) : (setWork w s).mem = s.mem := rfl
@[simp] theorem setWork_running (w : Work) : (setWork w s).running = s.running := rfl
@[simp] theorem setWork_host (w : Work) : (setWork w s).host = s.host := rfl
@[simp] theorem setWork_reply (w : Work) : (setWork w s).reply = s.reply := rfl
@[simp] theorem setWork_epoch (w : Work) : (setWork w s).epoch = s.epoch := rfl
@[simp] theorem setWork_draws (w : Work) : (setWork w s).draws = s.draws := rfl

@[simp] theorem writeBytes_params (b : ByteBuf) (i : Nat) (vs : List Byte) : (writeBytes b i vs s).params = s.params := rfl
@[simp] theorem writeBytes_format (b : ByteBuf) (i : Nat) (vs : List Byte) : (writeBytes b i vs s).format = s.format := rfl
@[simp] theorem writeBytes_baud (b : ByteBuf) (i : Nat) (vs : List Byte) : (writeBytes b i vs s).baud = s.baud := rfl
@[simp] theorem writeBytes_status (b : ByteBuf) (i : Nat) (vs : List Byte) : (writeBytes b i vs s).status = s.status := rfl
@[simp] theorem writeBytes_arg (b : ByteBuf) (i : Nat) (vs : List Byte) : (writeBytes b i vs s).arg = s.arg := rfl
@[simp] theorem writeBytes_result (b : ByteBuf) (i : Nat) (vs : List Byte) : (writeBytes b i vs s).result = s.result := rfl
@[simp] theorem writeBytes_xcount (b : ByteBuf) (i : Nat) (vs : List Byte) : (writeBytes b i vs s).xcount = s.xcount := rfl
@[simp] theorem writeBytes_spb (b : ByteBuf) (i : Nat) (vs : List Byte) : (writeBytes b i vs s).spb = s.spb := rfl
@[simp] theorem writeBytes_txbCount (b : ByteBuf) (i : Nat) (vs : List Byte) : (writeBytes b i vs s).txbCount = s.txbCount := rfl
@[simp] theorem writeBytes_txsCount (b : ByteBuf) (i : Nat) (vs : List Byte) : (writeBytes b i vs s).txsCount = s.txsCount := rfl
@[simp] theorem writeBytes_rxsCount (b : ByteBuf) (i : Nat) (vs : List Byte) : (writeBytes b i vs s).rxsCount = s.rxsCount := rfl
@[simp] theorem writeBytes_rxbCount (b : ByteBuf) (i : Nat) (vs : List Byte) : (writeBytes b i vs s).rxbCount = s.rxbCount := rfl
@[simp] theorem writeBytes_rxpos (b : ByteBuf) (i : Nat) (vs : List Byte) : (writeBytes b i vs s).rxpos = s.rxpos := rfl
@[simp] theorem writeBytes_rxState (b : ByteBuf) (i : Nat) (vs : List Byte) : (writeBytes b i vs s).rxState = s.rxState := rfl
@[simp] theorem writeBytes_work (b : ByteBuf) (i : Nat) (vs : List Byte) : (writeBytes b i vs s).work = s.work := rfl
@[simp] theorem writeBytes_mem (b : ByteBuf) (i : Nat) (vs : List Byte) : (writeBytes b i vs s).mem = s.mem.storeBytes b i vs := rfl
@[simp] theorem writeBytes_running (b : ByteBuf) (i : Nat) (vs : List Byte) : (writeBytes b i vs s).running = s.running := rfl
@[simp] theorem writeBytes_host (b : ByteBuf) (i : Nat) (vs : List Byte) : (writeBytes b i vs s).host = s.host := rfl
@[simp] theorem writeBytes_reply (b : ByteBuf) (i : Nat) (vs : List Byte) : (writeBytes b i vs s).reply = s.reply := rfl
@[simp] theorem writeBytes_epoch (b : ByteBuf) (i : Nat) (vs : List Byte) : (writeBytes b i vs s).epoch = s.epoch := rfl
@[simp] theorem writeBytes_draws (b : ByteBuf) (i : Nat) (vs : List Byte) : (writeBytes b i vs s).draws = s.draws := rfl

@[simp] theorem writeSamples_params (b : SampleBuf) (i : Nat) (vs : List Sample) : (writeSamples b i vs s).params = s.params := rfl
@[simp] theorem writeSamples_format (b : SampleBuf) (i : Nat) (vs : List Sample) : (writeSamples b i vs s).format = s.format := rfl
@[simp] theorem writeSamples_baud (b : SampleBuf) (i : Nat) (vs : List Sample) : (writeSamples b i vs s).baud = s.baud := rfl
@[simp] theorem writeSamples_status (b : SampleBuf) (i : Nat) (vs : List Sample) : (writeSamples b i vs s).status = s.status := rfl
@[simp] theorem writeSamples_arg (b : SampleBuf) (i : Nat) (vs : List Sample) : (writeSamples b i vs s).arg = s.arg := rfl
@[simp] theorem writeSamples_result (b : SampleBuf) (i : Nat) (vs : List Sample) : (writeSamples b i vs s).result = s.result := rfl
@[simp] theorem writeSamples_xcount (b : SampleBuf) (i : Nat) (vs : List Sample) : (writeSamples b i vs s).xcount = s.xcount := rfl
@[simp] theorem writeSamples_spb (b : SampleBuf) (i : Nat) (vs : List Sample) : (writeSamples b i vs s).spb = s.spb := rfl
@[simp] theorem writeSamples_txbCount (b : SampleBuf) (i : Nat) (vs : List Sample) : (writeSamples b i vs s).txbCount = s.txbCount := rfl
@[simp] theorem writeSamples_txsCount (b : SampleBuf) (i : Nat) (vs : List Sample) : (writeSamples b i vs s).txsCount = s.txsCount := rfl
@[simp] theorem writeSamples_rxsCount (b : SampleBuf) (i : Nat) (vs : List Sample) : (writeSamples b i vs s).rxsCount = s.rxsCount := rfl
@[simp] theorem writeSamples_rxbCount (b : SampleBuf) (i : Nat) (vs : List Sample) : (writeSamples b i vs s).rxbCount = s.rxbCount := rfl
@[simp] theorem writeSamples_rxpos (b : SampleBuf) (i : Nat) (vs : List Sample) : (writeSamples b i vs s).rxpos = s.rxpos := rfl
@[simp] theorem writeSamples_rxState (b : SampleBuf) (i : Nat) (vs : List Sample) : (writeSamples b i vs s).rxState = s.rxState := rfl
@[simp] theorem writeSamples_work (b : SampleBuf) (i : Nat) (vs : List Sample) : (writeSamples b i vs s).work = s.work := rfl
@[simp] theorem writeSamples_mem (b : SampleBuf) (i : Nat) (vs : List Sample) : (writeSamples b i vs s).mem = s.mem.storeSamples b i vs := rfl
@[simp] theorem writeSamples_running (b : SampleBuf) (i : Nat) (vs : List Sample) : (writeSamples b i vs s).running = s.running := rfl
@[simp] theorem writeSamples_host (b : SampleBuf) (i : Nat) (vs : List Sample) : (writeSamples b i vs s).host = s.host := rfl
@[simp] theorem writeSamples_reply (b : SampleBuf) (i : Nat) (vs : List Sample) : (writeSamples b i vs s).reply = s.reply := rfl
@[simp] theorem writeSamples_epoch (b : SampleBuf) (i : Nat) (vs : List Sample) : (writeSamples b i vs s).epoch = s.epoch := rfl
@[simp] theorem writeSamples_draws (b : SampleBuf) (i : Nat) (vs : List Sample) : (writeSamples b i vs s).draws = s.draws := rfl

/-! None of them touches what the derived quantities and checks read. -/

@[simp] theorem accept_dataBits : (accept s).dataBits = s.dataBits := rfl
@[simp] theorem accept_parityCode : (accept s).parityCode = s.parityCode := rfl
@[simp] theorem accept_stopBits : (accept s).stopBits = s.stopBits := rfl
@[simp] theorem accept_parityFlag : (accept s).parityFlag = s.parityFlag := rfl
@[simp] theorem accept_frameBits : (accept s).frameBits = s.frameBits := rfl
@[simp] theorem accept_samplesPerBit : (accept s).samplesPerBit = s.samplesPerBit := rfl
@[simp] theorem accept_charLen : (accept s).charLen = s.charLen := rfl
@[simp] theorem accept_baudOk : (accept s).baudOk = s.baudOk := rfl
@[simp] theorem accept_fmtOk : (accept s).fmtOk = s.fmtOk := rfl
@[simp] theorem accept_rxsFits : (accept s).rxsFits = s.rxsFits := rfl
@[simp] theorem accept_txbFits : (accept s).txbFits = s.txbFits := rfl
@[simp] theorem accept_argByte : (accept s).argByte = s.argByte := rfl
@[simp] theorem accept_argBit : (accept s).argBit = s.argBit := rfl

@[simp] theorem raise_dataBits (e : ErrCode) : (raise e s).dataBits = s.dataBits := rfl
@[simp] theorem raise_parityCode (e : ErrCode) : (raise e s).parityCode = s.parityCode := rfl
@[simp] theorem raise_stopBits (e : ErrCode) : (raise e s).stopBits = s.stopBits := rfl
@[simp] theorem raise_parityFlag (e : ErrCode) : (raise e s).parityFlag = s.parityFlag := rfl
@[simp] theorem raise_frameBits (e : ErrCode) : (raise e s).frameBits = s.frameBits := rfl
@[simp] theorem raise_samplesPerBit (e : ErrCode) : (raise e s).samplesPerBit = s.samplesPerBit := rfl
@[simp] theorem raise_charLen (e : ErrCode) : (raise e s).charLen = s.charLen := rfl
@[simp] theorem raise_baudOk (e : ErrCode) : (raise e s).baudOk = s.baudOk := rfl
@[simp] theorem raise_fmtOk (e : ErrCode) : (raise e s).fmtOk = s.fmtOk := rfl
@[simp] theorem raise_rxsFits (e : ErrCode) : (raise e s).rxsFits = s.rxsFits := rfl
@[simp] theorem raise_txbFits (e : ErrCode) : (raise e s).txbFits = s.txbFits := rfl
@[simp] theorem raise_argByte (e : ErrCode) : (raise e s).argByte = s.argByte := rfl
@[simp] theorem raise_argBit (e : ErrCode) : (raise e s).argBit = s.argBit := rfl

@[simp] theorem setTrunc_dataBits (t : Bool) : (setTrunc t s).dataBits = s.dataBits := rfl
@[simp] theorem setTrunc_parityCode (t : Bool) : (setTrunc t s).parityCode = s.parityCode := rfl
@[simp] theorem setTrunc_stopBits (t : Bool) : (setTrunc t s).stopBits = s.stopBits := rfl
@[simp] theorem setTrunc_parityFlag (t : Bool) : (setTrunc t s).parityFlag = s.parityFlag := rfl
@[simp] theorem setTrunc_frameBits (t : Bool) : (setTrunc t s).frameBits = s.frameBits := rfl
@[simp] theorem setTrunc_samplesPerBit (t : Bool) : (setTrunc t s).samplesPerBit = s.samplesPerBit := rfl
@[simp] theorem setTrunc_charLen (t : Bool) : (setTrunc t s).charLen = s.charLen := rfl
@[simp] theorem setTrunc_baudOk (t : Bool) : (setTrunc t s).baudOk = s.baudOk := rfl
@[simp] theorem setTrunc_fmtOk (t : Bool) : (setTrunc t s).fmtOk = s.fmtOk := rfl
@[simp] theorem setTrunc_rxsFits (t : Bool) : (setTrunc t s).rxsFits = s.rxsFits := rfl
@[simp] theorem setTrunc_txbFits (t : Bool) : (setTrunc t s).txbFits = s.txbFits := rfl
@[simp] theorem setTrunc_argByte (t : Bool) : (setTrunc t s).argByte = s.argByte := rfl
@[simp] theorem setTrunc_argBit (t : Bool) : (setTrunc t s).argBit = s.argBit := rfl

@[simp] theorem complete_dataBits : (complete s).dataBits = s.dataBits := rfl
@[simp] theorem complete_parityCode : (complete s).parityCode = s.parityCode := rfl
@[simp] theorem complete_stopBits : (complete s).stopBits = s.stopBits := rfl
@[simp] theorem complete_parityFlag : (complete s).parityFlag = s.parityFlag := rfl
@[simp] theorem complete_frameBits : (complete s).frameBits = s.frameBits := rfl
@[simp] theorem complete_samplesPerBit : (complete s).samplesPerBit = s.samplesPerBit := rfl
@[simp] theorem complete_charLen : (complete s).charLen = s.charLen := rfl
@[simp] theorem complete_baudOk : (complete s).baudOk = s.baudOk := rfl
@[simp] theorem complete_fmtOk : (complete s).fmtOk = s.fmtOk := rfl
@[simp] theorem complete_rxsFits : (complete s).rxsFits = s.rxsFits := rfl
@[simp] theorem complete_txbFits : (complete s).txbFits = s.txbFits := rfl
@[simp] theorem complete_argByte : (complete s).argByte = s.argByte := rfl
@[simp] theorem complete_argBit : (complete s).argBit = s.argBit := rfl

@[simp] theorem latchSpb_dataBits : (latchSpb s).dataBits = s.dataBits := rfl
@[simp] theorem latchSpb_parityCode : (latchSpb s).parityCode = s.parityCode := rfl
@[simp] theorem latchSpb_stopBits : (latchSpb s).stopBits = s.stopBits := rfl
@[simp] theorem latchSpb_parityFlag : (latchSpb s).parityFlag = s.parityFlag := rfl
@[simp] theorem latchSpb_frameBits : (latchSpb s).frameBits = s.frameBits := rfl
@[simp] theorem latchSpb_samplesPerBit : (latchSpb s).samplesPerBit = s.samplesPerBit := rfl
@[simp] theorem latchSpb_charLen : (latchSpb s).charLen = s.charLen := rfl
@[simp] theorem latchSpb_baudOk : (latchSpb s).baudOk = s.baudOk := rfl
@[simp] theorem latchSpb_fmtOk : (latchSpb s).fmtOk = s.fmtOk := rfl
@[simp] theorem latchSpb_rxsFits : (latchSpb s).rxsFits = s.rxsFits := rfl
@[simp] theorem latchSpb_txbFits : (latchSpb s).txbFits = s.txbFits := rfl
@[simp] theorem latchSpb_argByte : (latchSpb s).argByte = s.argByte := rfl
@[simp] theorem latchSpb_argBit : (latchSpb s).argBit = s.argBit := rfl

@[simp] theorem latchSpbOnInvalid_dataBits : (latchSpbOnInvalid s).dataBits = s.dataBits := rfl
@[simp] theorem latchSpbOnInvalid_parityCode : (latchSpbOnInvalid s).parityCode = s.parityCode := rfl
@[simp] theorem latchSpbOnInvalid_stopBits : (latchSpbOnInvalid s).stopBits = s.stopBits := rfl
@[simp] theorem latchSpbOnInvalid_parityFlag : (latchSpbOnInvalid s).parityFlag = s.parityFlag := rfl
@[simp] theorem latchSpbOnInvalid_frameBits : (latchSpbOnInvalid s).frameBits = s.frameBits := rfl
@[simp] theorem latchSpbOnInvalid_samplesPerBit : (latchSpbOnInvalid s).samplesPerBit = s.samplesPerBit := rfl
@[simp] theorem latchSpbOnInvalid_charLen : (latchSpbOnInvalid s).charLen = s.charLen := rfl
@[simp] theorem latchSpbOnInvalid_baudOk : (latchSpbOnInvalid s).baudOk = s.baudOk := rfl
@[simp] theorem latchSpbOnInvalid_fmtOk : (latchSpbOnInvalid s).fmtOk = s.fmtOk := rfl
@[simp] theorem latchSpbOnInvalid_rxsFits : (latchSpbOnInvalid s).rxsFits = s.rxsFits := rfl
@[simp] theorem latchSpbOnInvalid_txbFits : (latchSpbOnInvalid s).txbFits = s.txbFits := rfl
@[simp] theorem latchSpbOnInvalid_argByte : (latchSpbOnInvalid s).argByte = s.argByte := rfl
@[simp] theorem latchSpbOnInvalid_argBit : (latchSpbOnInvalid s).argBit = s.argBit := rfl

@[simp] theorem setXcount_dataBits (c : Nat) : (setXcount c s).dataBits = s.dataBits := rfl
@[simp] theorem setXcount_parityCode (c : Nat) : (setXcount c s).parityCode = s.parityCode := rfl
@[simp] theorem setXcount_stopBits (c : Nat) : (setXcount c s).stopBits = s.stopBits := rfl
@[simp] theorem setXcount_parityFlag (c : Nat) : (setXcount c s).parityFlag = s.parityFlag := rfl
@[simp] theorem setXcount_frameBits (c : Nat) : (setXcount c s).frameBits = s.frameBits := rfl
@[simp] theorem setXcount_samplesPerBit (c : Nat) : (setXcount c s).samplesPerBit = s.samplesPerBit := rfl
@[simp] theorem setXcount_charLen (c : Nat) : (setXcount c s).charLen = s.charLen := rfl
@[simp] theorem setXcount_baudOk (c : Nat) : (setXcount c s).baudOk = s.baudOk := rfl
@[simp] theorem setXcount_fmtOk (c : Nat) : (setXcount c s).fmtOk = s.fmtOk := rfl
@[simp] theorem setXcount_rxsFits (c : Nat) : (setXcount c s).rxsFits = s.rxsFits := rfl
@[simp] theorem setXcount_txbFits (c : Nat) : (setXcount c s).txbFits = s.txbFits := rfl
@[simp] theorem setXcount_argByte (c : Nat) : (setXcount c s).argByte = s.argByte := rfl
@[simp] theorem setXcount_argBit (c : Nat) : (setXcount c s).argBit = s.argBit := rfl

@[simp] theorem setResult_dataBits (v : Byte) (a : Bool) : (setResult v a s).dataBits = s.dataBits := rfl
@[simp] theorem setResult_parityCode (v : Byte) (a : Bool) : (setResult v a s).parityCode = s.parityCode := rfl
@[simp] theorem setResult_stopBits (v : Byte) (a : Bool) : (setResult v a s).stopBits = s.stopBits := rfl
@[simp] theorem setResult_parityFlag (v : Byte) (a : Bool) : (setResult v a s).parityFlag = s.parityFlag := rfl
@[simp] theorem setResult_frameBits (v : Byte) (a : Bool) : (setResult v a s).frameBits = s.frameBits := rfl
@[simp] theorem setResult_samplesPerBit (v : Byte) (a : Bool) : (setResult v a s).samplesPerBit = s.samplesPerBit := rfl
@[simp] theorem setResult_charLen (v : Byte) (a : Bool) : (setResult v a s).charLen = s.charLen := rfl
@[simp] theorem setResult_baudOk (v : Byte) (a : Bool) : (setResult v a s).baudOk = s.baudOk := rfl
@[simp] theorem setResult_fmtOk (v : Byte) (a : Bool) : (setResult v a s).fmtOk = s.fmtOk := rfl
@[simp] theorem setResult_rxsFits (v : Byte) (a : Bool) : (setResult v a s).rxsFits = s.rxsFits := rfl
@[simp] theorem setResult_txbFits (v : Byte) (a : Bool) : (setResult v a s).txbFits = s.txbFits := rfl
@[simp] theorem setResult_argByte (v : Byte) (a : Bool) : (setResult v a s).argByte = s.argByte := rfl
@[simp] theorem setResult_argBit (v : Byte) (a : Bool) : (setResult v a s).argBit = s.argBit := rfl

@[simp] theorem setRxpos_dataBits (p : Nat) : (setRxpos p s).dataBits = s.dataBits := rfl
@[simp] theorem setRxpos_parityCode (p : Nat) : (setRxpos p s).parityCode = s.parityCode := rfl
@[simp] theorem setRxpos_stopBits (p : Nat) : (setRxpos p s).stopBits = s.stopBits := rfl
@[simp] theorem setRxpos_parityFlag (p : Nat) : (setRxpos p s).parityFlag = s.parityFlag := rfl
@[simp] theorem setRxpos_frameBits (p : Nat) : (setRxpos p s).frameBits = s.frameBits := rfl
@[simp] theorem setRxpos_samplesPerBit (p : Nat) : (setRxpos p s).samplesPerBit = s.samplesPerBit := rfl
@[simp] theorem setRxpos_charLen (p : Nat) : (setRxpos p s).charLen = s.charLen := rfl
@[simp] theorem setRxpos_baudOk (p : Nat) : (setRxpos p s).baudOk = s.baudOk := rfl
@[simp] theorem setRxpos_fmtOk (p : Nat) : (setRxpos p s).fmtOk = s.fmtOk := rfl
@[simp] theorem setRxpos_rxsFits (p : Nat) : (setRxpos p s).rxsFits = s.rxsFits := rfl
@[simp] theorem setRxpos_txbFits (p : Nat) : (setRxpos p s).txbFits = s.txbFits := rfl
@[simp] theorem setRxpos_argByte (p : Nat) : (setRxpos p s).argByte = s.argByte := rfl
@[simp] theorem setRxpos_argBit (p : Nat) : (setRxpos p s).argBit = s.argBit := rfl

@[simp] theorem setTxsCount_dataBits (n : Nat) : (setTxsCount n s).dataBits = s.dataBits := rfl
@[simp] theorem setTxsCount_parityCode (n : Nat) : (setTxsCount n s).parityCode = s.parityCode := rfl
@[simp] theorem setTxsCount_stopBits (n : Nat) : (setTxsCount n s).stopBits = s.stopBits := rfl
@[simp] theorem setTxsCount_parityFlag (n : Nat) : (setTxsCount n s).parityFlag = s.parityFlag := rfl
@[simp] theorem setTxsCount_frameBits (n : Nat) : (setTxsCount n s).frameBits = s.frameBits := rfl
@[simp] theorem setTxsCount_samplesPerBit (n : Nat) : (setTxsCount n s).samplesPerBit = s.samplesPerBit := rfl
@[simp] theorem setTxsCount_charLen (n : Nat) : (setTxsCount n s).charLen = s.charLen := rfl
@[simp] theorem setTxsCount_baudOk (n : Nat) : (setTxsCount n s).baudOk = s.baudOk := rfl
@[simp] theorem setTxsCount_fmtOk (n : Nat) : (setTxsCount n s).fmtOk = s.fmtOk := rfl
@[simp] theorem setTxsCount_rxsFits (n : Nat) : (setTxsCount n s).rxsFits = s.rxsFits := rfl
@[simp] theorem setTxsCount_txbFits (n : Nat) : (setTxsCount n s).txbFits = s.txbFits := rfl
@[simp] theorem setTxsCount_argByte (n : Nat) : (setTxsCount n s).argByte = s.argByte := rfl
@[simp] theorem setTxsCount_argBit (n : Nat) : (setTxsCount n s).argBit = s.argBit := rfl

@[simp] theorem setRxbCount_dataBits (n : Nat) : (setRxbCount n s).dataBits = s.dataBits := rfl
@[simp] theorem setRxbCount_parityCode (n : Nat) : (setRxbCount n s).parityCode = s.parityCode := rfl
@[simp] theorem setRxbCount_stopBits (n : Nat) : (setRxbCount n s).stopBits = s.stopBits := rfl
@[simp] theorem setRxbCount_parityFlag (n : Nat) : (setRxbCount n s).parityFlag = s.parityFlag := rfl
@[simp] theorem setRxbCount_frameBits (n : Nat) : (setRxbCount n s).frameBits = s.frameBits := rfl
@[simp] theorem setRxbCount_samplesPerBit (n : Nat) : (setRxbCount n s).samplesPerBit = s.samplesPerBit := rfl
@[simp] theorem setRxbCount_charLen (n : Nat) : (setRxbCount n s).charLen = s.charLen := rfl
@[simp] theorem setRxbCount_baudOk (n : Nat) : (setRxbCount n s).baudOk = s.baudOk := rfl
@[simp] theorem setRxbCount_fmtOk (n : Nat) : (setRxbCount n s).fmtOk = s.fmtOk := rfl
@[simp] theorem setRxbCount_rxsFits (n : Nat) : (setRxbCount n s).rxsFits = s.rxsFits := rfl
@[simp] theorem setRxbCount_txbFits (n : Nat) : (setRxbCount n s).txbFits = s.txbFits := rfl
@[simp] theorem setRxbCount_argByte (n : Nat) : (setRxbCount n s).argByte = s.argByte := rfl
@[simp] theorem setRxbCount_argBit (n : Nat) : (setRxbCount n s).argBit = s.argBit := rfl

@[simp] theorem setRxState_dataBits (x : RxState) : (setRxState x s).dataBits = s.dataBits := rfl
@[simp] theorem setRxState_parityCode (x : RxState) : (setRxState x s).parityCode = s.parityCode := rfl
@[simp] theorem setRxState_stopBits (x : RxState) : (setRxState x s).stopBits = s.stopBits := rfl
@[simp] theorem setRxState_parityFlag (x : RxState) : (setRxState x s).parityFlag = s.parityFlag := rfl
@[simp] theorem setRxState_frameBits (x : RxState) : (setRxState x s).frameBits = s.frameBits := rfl
@[simp] theorem setRxState_samplesPerBit (x : RxState) : (setRxState x s).samplesPerBit = s.samplesPerBit := rfl
@[simp] theorem setRxState_charLen (x : RxState) : (setRxState x s).charLen = s.charLen := rfl
@[simp] theorem setRxState_baudOk (x : RxState) : (setRxState x s).baudOk = s.baudOk := rfl
@[simp] theorem setRxState_fmtOk (x : RxState) : (setRxState x s).fmtOk = s.fmtOk := rfl
@[simp] theorem setRxState_rxsFits (x : RxState) : (setRxState x s).rxsFits = s.rxsFits := rfl
@[simp] theorem setRxState_txbFits (x : RxState) : (setRxState x s).txbFits = s.txbFits := rfl
@[simp] theorem setRxState_argByte (x : RxState) : (setRxState x s).argByte = s.argByte := rfl
@[simp] theorem setRxState_argBit (x : RxState) : (setRxState x s).argBit = s.argBit := rfl

@[simp] theorem setWork_dataBits (w : Work) : (setWork w s).dataBits = s.dataBits := rfl
@[simp] theorem setWork_parityCode (w : Work) : (setWork w s).parityCode = s.parityCode := rfl
@[simp] theorem setWork_stopBits (w : Work) : (setWork w s).stopBits = s.stopBits := rfl
@[simp] theorem setWork_parityFlag (w : Work) : (setWork w s).parityFlag = s.parityFlag := rfl
@[simp] theorem setWork_frameBits (w : Work) : (setWork w s).frameBits = s.frameBits := rfl
@[simp] theorem setWork_samplesPerBit (w : Work) : (setWork w s).samplesPerBit = s.samplesPerBit := rfl
@[simp] theorem setWork_charLen (w : Work) : (setWork w s).charLen = s.charLen := rfl
@[simp] theorem setWork_baudOk (w : Work) : (setWork w s).baudOk = s.baudOk := rfl
@[simp] theorem setWork_fmtOk (w : Work) : (setWork w s).fmtOk = s.fmtOk := rfl
@[simp] theorem setWork_rxsFits (w : Work) : (setWork w s).rxsFits = s.rxsFits := rfl
@[simp] theorem setWork_txbFits (w : Work) : (setWork w s).txbFits = s.txbFits := rfl
@[simp] theorem setWork_argByte (w : Work) : (setWork w s).argByte = s.argByte := rfl
@[simp] theorem setWork_argBit (w : Work) : (setWork w s).argBit = s.argBit := rfl

@[simp] theorem writeBytes_dataBits (b : ByteBuf) (i : Nat) (vs : List Byte) : (writeBytes b i vs s).dataBits = s.dataBits := rfl
@[simp] theorem writeBytes_parityCode (b : ByteBuf) (i : Nat) (vs : List Byte) : (writeBytes b i vs s).parityCode = s.parityCode := rfl
@[simp] theorem writeBytes_stopBits (b : ByteBuf) (i : Nat) (vs : List Byte) : (writeBytes b i vs s).stopBits = s.stopBits := rfl
@[simp] theorem writeBytes_parityFlag (b : ByteBuf) (i : Nat) (vs : List Byte) : (writeBytes b i vs s).parityFlag = s.parityFlag := rfl
@[simp] theorem writeBytes_frameBits (b : ByteBuf) (i : Nat) (vs : List Byte) : (writeBytes b i vs s).frameBits = s.frameBits := rfl
@[simp] theorem writeBytes_samplesPerBit (b : ByteBuf) (i : Nat) (vs : List Byte) : (writeBytes b i vs s).samplesPerBit = s.samplesPerBit := rfl
@[simp] theorem writeBytes_charLen (b : ByteBuf) (i : Nat) (vs : List Byte) : (writeBytes b i vs s).charLen = s.charLen := rfl
@[simp] theorem writeBytes_baudOk (b : ByteBuf) (i : Nat) (vs : List Byte) : (writeBytes b i vs s).baudOk = s.baudOk := rfl
@[simp] theorem writeBytes_fmtOk (b : ByteBuf) (i : Nat) (vs : List Byte) : (writeBytes b i vs s).fmtOk = s.fmtOk := rfl
@[simp] theorem writeBytes_rxsFits (b : ByteBuf) (i : Nat) (vs : List Byte) : (writeBytes b i vs s).rxsFits = s.rxsFits := rfl
@[simp] theorem writeBytes_txbFits (b : ByteBuf) (i : Nat) (vs : List Byte) : (writeBytes b i vs s).txbFits = s.txbFits := rfl
@[simp] theorem writeBytes_argByte (b : ByteBuf) (i : Nat) (vs : List Byte) : (writeBytes b i vs s).argByte = s.argByte := rfl
@[simp] theorem writeBytes_argBit (b : ByteBuf) (i : Nat) (vs : List Byte) : (writeBytes b i vs s).argBit = s.argBit := rfl

@[simp] theorem writeSamples_dataBits (b : SampleBuf) (i : Nat) (vs : List Sample) : (writeSamples b i vs s).dataBits = s.dataBits := rfl
@[simp] theorem writeSamples_parityCode (b : SampleBuf) (i : Nat) (vs : List Sample) : (writeSamples b i vs s).parityCode = s.parityCode := rfl
@[simp] theorem writeSamples_stopBits (b : SampleBuf) (i : Nat) (vs : List Sample) : (writeSamples b i vs s).stopBits = s.stopBits := rfl
@[simp] theorem writeSamples_parityFlag (b : SampleBuf) (i : Nat) (vs : List Sample) : (writeSamples b i vs s).parityFlag = s.parityFlag := rfl
@[simp] theorem writeSamples_frameBits (b : SampleBuf) (i : Nat) (vs : List Sample) : (writeSamples b i vs s).frameBits = s.frameBits := rfl
@[simp] theorem writeSamples_samplesPerBit (b : SampleBuf) (i : Nat) (vs : List Sample) : (writeSamples b i vs s).samplesPerBit = s.samplesPerBit := rfl
@[simp] theorem writeSamples_charLen (b : SampleBuf) (i : Nat) (vs : List Sample) : (writeSamples b i vs s).charLen = s.charLen := rfl
@[simp] theorem writeSamples_baudOk (b : SampleBuf) (i : Nat) (vs : List Sample) : (writeSamples b i vs s).baudOk = s.baudOk := rfl
@[simp] theorem writeSamples_fmtOk (b : SampleBuf) (i : Nat) (vs : List Sample) : (writeSamples b i vs s).fmtOk = s.fmtOk := rfl
@[simp] theorem writeSamples_rxsFits (b : SampleBuf) (i : Nat) (vs : List Sample) : (writeSamples b i vs s).rxsFits = s.rxsFits := rfl
@[simp] theorem writeSamples_txbFits (b : SampleBuf) (i : Nat) (vs : List Sample) : (writeSamples b i vs s).txbFits = s.txbFits := rfl
@[simp] theorem writeSamples_argByte (b : SampleBuf) (i : Nat) (vs : List Sample) : (writeSamples b i vs s).argByte = s.argByte := rfl
@[simp] theorem writeSamples_argBit (b : SampleBuf) (i : Nat) (vs : List Sample) : (writeSamples b i vs s).argBit = s.argBit := rfl

end Sys2Proof.Machine
end

