-- ==== Sys2Proof/Laws/Cells.lean ====
section
/-! SUPPORT. The laws of the buffers: reading after writing, the canonical form, the capacity. -/

namespace Sys2Proof.Machine

variable {w : Nat}

@[simp] theorem cells_get?_nil (i : Nat) : Cells.get? ([] : Cells w) i = none := rfl

theorem cells_get?_cons (e : Nat × BitVec w) (c : Cells w) (i : Nat) :
    Cells.get? (e :: c) i = if e.1 = i then some e.2 else Cells.get? c i := rfl

@[simp] theorem cells_block_nil (i : Nat) : Cells.block i ([] : List (BitVec w)) = [] := rfl

@[simp] theorem cells_block_cons (i : Nat) (v : BitVec w) (vs : List (BitVec w)) :
    Cells.block i (v :: vs) = (i, v) :: Cells.block (i + 1) vs := rfl

theorem cells_get?_append (c d : Cells w) (i : Nat) :
    Cells.get? (c ++ d) i = (Cells.get? c i).or (Cells.get? d i) := by
  induction c with
  | nil => rfl
  | cons e c ih =>
    rw [List.cons_append, cells_get?_cons, cells_get?_cons, ih]
    split <;> rfl

/-- A filter on the indexes hides an element or leaves it as it is. -/
theorem cells_get?_filter (p : Nat → Bool) (c : Cells w) (i : Nat) :
    Cells.get? (c.filter (fun e => p e.1)) i = if p i then Cells.get? c i else none := by
  induction c with
  | nil => simp
  | cons e c ih =>
    rw [List.filter_cons, cells_get?_cons]
    by_cases he : e.1 = i
    · subst he
      cases hp : p e.1 <;> simp [hp, cells_get?_cons, ih]
    · cases hp : p e.1 <;> simp [cells_get?_cons, he, ih]

theorem cells_get?_block (vs : List (BitVec w)) : ∀ i j,
    Cells.get? (Cells.block i vs) j = if i ≤ j then vs[j - i]? else none := by
  induction vs with
  | nil => intro i j; simp
  | cons v vs ih =>
    intro i j
    rw [cells_block_cons, cells_get?_cons, ih]
    by_cases h : i = j
    · simp [h]
    · by_cases h2 : i + 1 ≤ j
      · have h3 : j - i = (j - (i + 1)) + 1 := by omega
        simp [h, h2, (by omega : i ≤ j), h3]
      · rw [if_neg h, if_neg h2, if_neg (by omega)]

/-- Reading after writing a block: the block's elements inside it, the old elements outside. -/
theorem cells_get?_store (c : Cells w) (i : Nat) (vs : List (BitVec w)) (j : Nat) :
    Cells.get? (Cells.store c i vs) j =
      if i ≤ j ∧ j < i + vs.length then vs[j - i]? else Cells.get? c j := by
  rw [Cells.store, cells_get?_append, cells_get?_append, cells_get?_block,
    cells_get?_filter (fun k => decide (k < i)), cells_get?_filter (fun k => decide (i + vs.length ≤ k))]
  by_cases h1 : j < i
  · rw [if_neg (by omega : ¬ i ≤ j), if_neg (by omega : ¬ (i ≤ j ∧ j < i + vs.length))]
    rw [show decide (i + vs.length ≤ j) = false from by simp; omega]
    simp [h1]
  · by_cases h2 : j < i + vs.length
    · have h3 : vs[j - i]? = some (vs[j - i]'(by omega)) := List.getElem?_eq_getElem (by omega)
      simp only [h1, h2, h3, (by omega : i ≤ j), decide_false, Bool.false_eq_true, if_false, and_self, if_true,
        Option.none_or, Option.some_or]
    · have h3 : vs[j - i]? = none := List.getElem?_eq_none (by omega)
      simp [h1, h2, h3, (by omega : i ≤ j), (by omega : i + vs.length ≤ j)]

theorem cells_get?_slice (c : Cells w) (i n j : Nat) (h : i ≤ j ∧ j < i + n) :
    Cells.get? (Cells.slice c i n) j = Cells.get? c j := by
  rw [Cells.slice, cells_get?_filter (fun k => decide (i ≤ k) && decide (k < i + n))]
  simp [h.1, h.2]

/-! ### The canonical form -/

theorem cells_mem_block {vs : List (BitVec w)} : ∀ {i : Nat} {e : Nat × BitVec w}, e ∈ Cells.block i vs →
    i ≤ e.1 ∧ e.1 < i + vs.length := by
  induction vs with
  | nil => intro i e h; simp at h
  | cons v vs ih =>
    intro i e h
    rw [cells_block_cons, List.mem_cons] at h
    rcases h with rfl | h
    · simp
    · have := ih h
      simp only [List.length_cons]
      omega

theorem cells_block_rising (vs : List (BitVec w)) : ∀ i,
    (Cells.block i vs).Pairwise (fun a b => a.1 < b.1) := by
  induction vs with
  | nil => intro i; simp
  | cons v vs ih =>
    intro i
    rw [cells_block_cons, List.pairwise_cons]
    exact ⟨fun e he => by have := cells_mem_block he; simp only; omega, ih _⟩

/-- Writing a block keeps the canonical form. -/
theorem cells_store_wf {c : Cells w} (h : Cells.wf c = true) (i : Nat) (vs : List (BitVec w)) :
    Cells.wf (Cells.store c i vs) = true := by
  simp only [Cells.wf, decide_eq_true_eq] at *
  rw [Cells.store, List.append_assoc, List.pairwise_append, List.pairwise_append]
  refine ⟨h.filter _, ⟨cells_block_rising _ _, h.filter _, ?_⟩, ?_⟩
  · intro a ha b hb
    have := cells_mem_block ha
    have hb := (List.mem_filter.1 hb).2
    simp only [decide_eq_true_eq] at hb
    omega
  · intro a ha b hb
    have ha := (List.mem_filter.1 ha).2
    simp only [decide_eq_true_eq] at ha
    rcases List.mem_append.1 hb with hb | hb
    · have := cells_mem_block hb
      omega
    · have hb := (List.mem_filter.1 hb).2
      simp only [decide_eq_true_eq] at hb
      omega

theorem cells_mem_store {c : Cells w} {i : Nat} {vs : List (BitVec w)} {e : Nat × BitVec w}
    (h : e ∈ Cells.store c i vs) : e ∈ c ∨ (i ≤ e.1 ∧ e.1 < i + vs.length) := by
  rw [Cells.store, List.mem_append, List.mem_append] at h
  rcases h with (h | h) | h
  · exact .inl (List.mem_filter.1 h).1
  · exact .inr (cells_mem_block h)
  · exact .inl (List.mem_filter.1 h).1

/-- Writing one more element behind a block is writing the longer block. -/
theorem cells_store_snoc (c : Cells w) (i : Nat) (vs : List (BitVec w)) (v : BitVec w) :
    Cells.store (Cells.store c i vs) (i + vs.length) [v] = Cells.store c i (vs ++ [v]) := by
  have hblock : ∀ (us : List (BitVec w)) (k : Nat),
      Cells.block k (us ++ [v]) = Cells.block k us ++ [(k + us.length, v)] := by
    intro us
    induction us with
    | nil => intro k; simp
    | cons u us ih => intro k; simp [ih]; omega
  have hkeep : (Cells.block i vs).filter (fun e => decide (e.1 < i + vs.length)) = Cells.block i vs :=
    List.filter_eq_self.2 (fun e he => by have := cells_mem_block he; simp; omega)
  have hdrop : (Cells.block i vs).filter (fun e => decide (i + vs.length + 1 ≤ e.1)) = [] :=
    List.filter_eq_nil_iff.2 (fun e he => by have := cells_mem_block he; simp; omega)
  have hlow : ∀ e : Nat × BitVec w, (decide (e.1 < i + vs.length) && decide (e.1 < i)) = decide (e.1 < i) := by
    intro e; by_cases h : e.1 < i <;> simp [h]; omega
  have hmid : ∀ e : Nat × BitVec w, (decide (e.1 < i + vs.length) && decide (i + vs.length ≤ e.1)) = false := by
    intro e; by_cases h : e.1 < i + vs.length <;> simp [h]
  have hlow' : ∀ e : Nat × BitVec w, (decide (i + vs.length + 1 ≤ e.1) && decide (e.1 < i)) = false := by
    intro e; by_cases h : e.1 < i <;> simp [h]; omega
  have hhigh : ∀ e : Nat × BitVec w, (decide (i + vs.length + 1 ≤ e.1) && decide (i + vs.length ≤ e.1)) =
      decide (i + vs.length + 1 ≤ e.1) := by
    intro e; by_cases h : i + vs.length + 1 ≤ e.1 <;> simp [h]; omega
  simp only [Cells.store, List.filter_append, List.filter_filter, List.length_cons, List.length_nil,
    List.length_append, Nat.zero_add, hblock, hkeep, hdrop, hlow, hmid, hlow', hhigh, cells_block_cons,
    cells_block_nil, List.filter_false, List.append_nil, List.nil_append, List.append_assoc, ← Nat.add_assoc]

/-- Nothing is written when nothing is to be written, in a buffer in canonical form. -/
theorem cells_store_nil_zero (c : Cells w) : Cells.store c 0 [] = c := by
  simp [Cells.store]

/-! ### The memory -/

theorem memory_storeBytes_wf {m : Memory} (h : m.wf = true) (b : ByteBuf) (i : Nat) (vs : List Byte) :
    (m.storeBytes b i vs).wf = true := by
  simp only [Memory.wf, Bool.and_eq_true] at h
  obtain ⟨⟨⟨h1, h2⟩, h3⟩, h4⟩ := h
  cases b <;> simp [Memory.storeBytes, Memory.wf, cells_store_wf, h1, h2, h3, h4]

theorem memory_storeSamples_wf {m : Memory} (h : m.wf = true) (b : SampleBuf) (i : Nat) (vs : List Sample) :
    (m.storeSamples b i vs).wf = true := by
  simp only [Memory.wf, Bool.and_eq_true] at h
  obtain ⟨⟨⟨h1, h2⟩, h3⟩, h4⟩ := h
  cases b <;> simp [Memory.storeSamples, Memory.wf, cells_store_wf, h1, h2, h3, h4]

theorem memory_empty_wf : Memory.empty.wf = true := by decide

/-- The memory after reset is in canonical form. -/
theorem reset_memory_wf : State.reset.mem.wf = true := by decide

@[simp] theorem readByte_writeBytes (s : State) (b b' : ByteBuf) (i j : Nat) (vs : List Byte) :
    readByte (writeBytes b i vs s) b' j =
      if b' = b ∧ i ≤ j ∧ j < i + vs.length then vs[j - i]?.getD 0#8 else readByte s b' j := by
  have key : ∀ c : Cells 8, ((Cells.get? (Cells.store c i vs) j).getD (Config.unwrittenByte s.epoch b' j)) =
      if i ≤ j ∧ j < i + vs.length then vs[j - i]?.getD 0#8
      else (Cells.get? c j).getD (Config.unwrittenByte s.epoch b' j) := by
    intro c
    rw [cells_get?_store]
    split
    · rw [List.getElem?_eq_getElem (by omega)]; rfl
    · rfl
  cases b <;> cases b' <;> simp [readByte, writeBytes, Memory.bytes, Memory.storeBytes, key]

@[simp] theorem readSample_writeSamples (s : State) (b b' : SampleBuf) (i j : Nat) (vs : List Sample) :
    readSample (writeSamples b i vs s) b' j =
      if b' = b ∧ i ≤ j ∧ j < i + vs.length then vs[j - i]?.getD 0#16 else readSample s b' j := by
  have key : ∀ c : Cells 16, ((Cells.get? (Cells.store c i vs) j).getD (Config.unwrittenSample s.epoch b' j)) =
      if i ≤ j ∧ j < i + vs.length then vs[j - i]?.getD 0#16
      else (Cells.get? c j).getD (Config.unwrittenSample s.epoch b' j) := by
    intro c
    rw [cells_get?_store]
    split
    · rw [List.getElem?_eq_getElem (by omega)]; rfl
    · rfl
  cases b <;> cases b' <;> simp [readSample, writeSamples, Memory.samples, Memory.storeSamples, key]

@[simp] theorem readByte_writeSamples (s : State) (b : SampleBuf) (b' : ByteBuf) (i j : Nat) (vs : List Sample) :
    readByte (writeSamples b i vs s) b' j = readByte s b' j := by
  cases b <;> cases b' <;> rfl

@[simp] theorem readSample_writeBytes (s : State) (b : ByteBuf) (b' : SampleBuf) (i j : Nat) (vs : List Byte) :
    readSample (writeBytes b i vs s) b' j = readSample s b' j := by
  cases b <;> cases b' <;> rfl

/-! ### Reads through the updates that leave the memory alone -/

@[simp] theorem readByte_accept (s : State) (b : ByteBuf) (i : Nat) :
    readByte (accept s) b i = readByte s b i := rfl

@[simp] theorem readSample_accept (s : State) (b : SampleBuf) (i : Nat) :
    readSample (accept s) b i = readSample s b i := rfl

@[simp] theorem readByte_raise (s : State) (e : ErrCode) (b : ByteBuf) (i : Nat) :
    readByte (raise e s) b i = readByte s b i := rfl

@[simp] theorem readSample_raise (s : State) (e : ErrCode) (b : SampleBuf) (i : Nat) :
    readSample (raise e s) b i = readSample s b i := rfl

@[simp] theorem readByte_setTrunc (s : State) (t : Bool) (b : ByteBuf) (i : Nat) :
    readByte (setTrunc t s) b i = readByte s b i := rfl

@[simp] theorem readSample_setTrunc (s : State) (t : Bool) (b : SampleBuf) (i : Nat) :
    readSample (setTrunc t s) b i = readSample s b i := rfl

@[simp] theorem readByte_complete (s : State) (b : ByteBuf) (i : Nat) :
    readByte (complete s) b i = readByte s b i := rfl

@[simp] theorem readSample_complete (s : State) (b : SampleBuf) (i : Nat) :
    readSample (complete s) b i = readSample s b i := rfl

@[simp] theorem readByte_latchSpb (s : State) (b : ByteBuf) (i : Nat) :
    readByte (latchSpb s) b i = readByte s b i := rfl

@[simp] theorem readSample_latchSpb (s : State) (b : SampleBuf) (i : Nat) :
    readSample (latchSpb s) b i = readSample s b i := rfl

@[simp] theorem readByte_latchSpbOnInvalid (s : State) (b : ByteBuf) (i : Nat) :
    readByte (latchSpbOnInvalid s) b i = readByte s b i := rfl

@[simp] theorem readSample_latchSpbOnInvalid (s : State) (b : SampleBuf) (i : Nat) :
    readSample (latchSpbOnInvalid s) b i = readSample s b i := rfl

@[simp] theorem readByte_setXcount (s : State) (c : Nat) (b : ByteBuf) (i : Nat) :
    readByte (setXcount c s) b i = readByte s b i := rfl

@[simp] theorem readSample_setXcount (s : State) (c : Nat) (b : SampleBuf) (i : Nat) :
    readSample (setXcount c s) b i = readSample s b i := rfl

@[simp] theorem readByte_setResult (s : State) (v : Byte) (a : Bool) (b : ByteBuf) (i : Nat) :
    readByte (setResult v a s) b i = readByte s b i := rfl

@[simp] theorem readSample_setResult (s : State) (v : Byte) (a : Bool) (b : SampleBuf) (i : Nat) :
    readSample (setResult v a s) b i = readSample s b i := rfl

@[simp] theorem readByte_setRxpos (s : State) (p : Nat) (b : ByteBuf) (i : Nat) :
    readByte (setRxpos p s) b i = readByte s b i := rfl

@[simp] theorem readSample_setRxpos (s : State) (p : Nat) (b : SampleBuf) (i : Nat) :
    readSample (setRxpos p s) b i = readSample s b i := rfl

@[simp] theorem readByte_setTxsCount (s : State) (n : Nat) (b : ByteBuf) (i : Nat) :
    readByte (setTxsCount n s) b i = readByte s b i := rfl

@[simp] theorem readSample_setTxsCount (s : State) (n : Nat) (b : SampleBuf) (i : Nat) :
    readSample (setTxsCount n s) b i = readSample s b i := rfl

@[simp] theorem readByte_setRxbCount (s : State) (n : Nat) (b : ByteBuf) (i : Nat) :
    readByte (setRxbCount n s) b i = readByte s b i := rfl

@[simp] theorem readSample_setRxbCount (s : State) (n : Nat) (b : SampleBuf) (i : Nat) :
    readSample (setRxbCount n s) b i = readSample s b i := rfl

@[simp] theorem readByte_setRxState (s : State) (x : RxState) (b : ByteBuf) (i : Nat) :
    readByte (setRxState x s) b i = readByte s b i := rfl

@[simp] theorem readSample_setRxState (s : State) (x : RxState) (b : SampleBuf) (i : Nat) :
    readSample (setRxState x s) b i = readSample s b i := rfl

@[simp] theorem readByte_setWork (s : State) (w : Work) (b : ByteBuf) (i : Nat) :
    readByte (setWork w s) b i = readByte s b i := rfl

@[simp] theorem readSample_setWork (s : State) (w : Work) (b : SampleBuf) (i : Nat) :
    readSample (setWork w s) b i = readSample s b i := rfl

/-- Reads depend on the memory and the epoch alone. -/
theorem readByte_congr {s t : State} (hm : t.mem = s.mem) (he : t.epoch = s.epoch) (b : ByteBuf) (i : Nat) :
    readByte t b i = readByte s b i := by
  simp [readByte, hm, he]

theorem readSample_congr {s t : State} (hm : t.mem = s.mem) (he : t.epoch = s.epoch) (b : SampleBuf) (i : Nat) :
    readSample t b i = readSample s b i := by
  simp [readSample, hm, he]

/-- A block of samples is read sample by sample. -/
theorem readSampleBlock_eq (s : State) (b : SampleBuf) (i n : Nat) :
    readSampleBlock s b i n = (List.range n).map (fun k => readSample s b (i + k)) := by
  refine List.map_congr_left (fun k hk => ?_)
  rw [cells_get?_slice _ _ _ _ ⟨by omega, by have := List.mem_range.1 hk; omega⟩]
  rfl

@[simp] theorem readSampleBlock_length (s : State) (b : SampleBuf) (i n : Nat) :
    (readSampleBlock s b i n).length = n := by
  simp [readSampleBlock]

@[simp] theorem readByteBlock_length (s : State) (b : ByteBuf) (i n : Nat) :
    (readByteBlock s b i n).length = n := by
  simp [readByteBlock]

theorem readSampleBlock_congr {s t : State} (hm : t.mem = s.mem) (he : t.epoch = s.epoch) (b : SampleBuf)
    (i n : Nat) : readSampleBlock t b i n = readSampleBlock s b i n := by
  simp [readSampleBlock, hm, he]

end Sys2Proof.Machine
end

