-- ==== Sys2Proof/Laws/Bus.lean ====
section
/-! SUPPORT. What the host's moves on buffers do: ownership, the elements that exist, and what a copy leaves. -/

namespace Sys2Proof.Machine

/-- A step of a well-formed instance takes the host's next move. -/
theorem step_host {s : State} {a : HostAct} {rest : List HostAct} (hp : s.params.ok = true)
    (hh : s.host = a :: rest) : step s = hostMove a { s with host := rest } := by
  simp [step, hp, hh]

theorem regAt_offset (r : Reg) : regAt r.offset = some r := by cases r <;> rfl

/-- The map has no register at any other offset. -/
theorem regAt_eq_some {o : Nat} {r : Reg} (h : regAt o = some r) : o = r.offset := by
  unfold regAt at h
  split at h <;> cases h <;> rfl

/-! ### Ownership and existence -/

variable {s : State}

theorem whenOwned_idle (h : s.status.busy = false) (o : Host.Outcome State Fault Refusal) : whenOwned s o = o := by
  simp [whenOwned, h]

theorem whenOwned_busy (h : s.status.busy = true) (o : Host.Outcome State Fault Refusal) :
    whenOwned s o = .refused .bufferWhileBusy := by
  simp [whenOwned, h]

theorem withBytes_inside {b : ByteBuf} {i n : Nat} (h : i + n ≤ s.params.byteCapacity b) (t : State) :
    withBytes s b i n t = .next t := by
  simp [withBytes, h]

theorem withBytes_outside {b : ByteBuf} {i n : Nat} (h : s.params.byteCapacity b ≤ i + n) (t : State) :
    withBytes s b i (n + 1) t = .fault (.noSuchByte b (i + n)) := by
  rw [withBytes, if_neg (by omega)]
  rfl

theorem withSamples_inside {b : SampleBuf} {i n : Nat} (h : i + n ≤ s.params.sampleCapacity b)
    (o : Host.Outcome State Fault Refusal) : withSamples s b i n o = o := by
  simp [withSamples, h]

theorem withSamples_outside {b : SampleBuf} {i n : Nat} (h : s.params.sampleCapacity b ≤ i + n)
    (o : Host.Outcome State Fault Refusal) : withSamples s b i (n + 1) o = .fault (.noSuchSample b (i + n)) := by
  rw [withSamples, if_neg (by omega)]
  rfl

/-! ### Blocks and copies -/

theorem readByteBlock_getElem (s : State) (b : ByteBuf) (i n k : Nat) (h : k < (readByteBlock s b i n).length) :
    (readByteBlock s b i n)[k] = readByte s b (i + k) := by
  simp [readByteBlock]

theorem readSampleBlock_getElem (s : State) (b : SampleBuf) (i n k : Nat)
    (h : k < (readSampleBlock s b i n).length) : (readSampleBlock s b i n)[k] = readSample s b (i + k) := by
  simp [readSampleBlock_eq]

/-- A copy gives the destination what the source held before it, and leaves every other sample alone. -/
theorem readSample_copySamples (s : State) (src dst b : SampleBuf) (i j n a : Nat) :
    readSample (copySamples src i dst j n s) b a =
      if b = dst ∧ j ≤ a ∧ a < j + n then readSample s src (i + (a - j)) else readSample s b a := by
  rw [copySamples, readSample_writeSamples, readSampleBlock_length]
  split
  · rw [List.getElem?_eq_getElem (by rw [readSampleBlock_length]; omega), readSampleBlock_getElem]
    rfl
  · rfl

@[simp] theorem readByte_copySamples (s : State) (src dst : SampleBuf) (b : ByteBuf) (i j n a : Nat) :
    readByte (copySamples src i dst j n s) b a = readByte s b a :=
  readByte_writeSamples ..

/-- No buffer is a register. -/
@[simp] theorem readReg_writeSamples (s : State) (b : SampleBuf) (i : Nat) (vs : List Sample) (r : Reg) :
    readReg (writeSamples b i vs s) r = readReg s r := by
  cases r <;> rfl

@[simp] theorem readReg_writeBytes (s : State) (b : ByteBuf) (i : Nat) (vs : List Byte) (r : Reg) :
    readReg (writeBytes b i vs s) r = readReg s r := by
  cases r <;> rfl

@[simp] theorem readReg_copySamples (s : State) (src dst : SampleBuf) (i j n : Nat) (r : Reg) :
    readReg (copySamples src i dst j n s) r = readReg s r :=
  readReg_writeSamples ..

end Sys2Proof.Machine
end

