-- ==== Sys2Proof/Laws/Commands.lean ====
section
/-! SUPPORT. What each command can do, said once: for the body of every command one lemma that lists its outcomes
with the conditions that lead to them, and the lengths of what it writes. -/

namespace Sys2Proof.Machine

/-! ### Lengths -/

@[simp] theorem synth_length (p : Params) (bit : Bool) (n : Nat) : (synth p bit n).length = n := by
  simp [synth]

@[simp] theorem rxWindow_length (s : State) (pos : Nat) : (rxWindow s pos).length = s.samplesPerBit := by
  simp [rxWindow]

@[simp] theorem payload_length (s : State) : (payload s).length = s.txbCount.toNat := by
  simp [payload]

theorem payload_getElem (s : State) (j : Nat) (h : j < (payload s).length) :
    (payload s)[j] = readByte s .txb j := by
  simp [payload, readByteBlock]

/-- With a checked format the parity window is there exactly when the parity is not None. -/
theorem parityBits_length (s : State) (b : Byte) (h : s.parityCode ≠ 3#2) :
    (parityBits s b).length = s.parityFlag := by
  have hall : ∀ c : BitVec 2, c ≠ 3#2 → c = 0#2 ∨ c = 1#2 ∨ c = 2#2 := by decide
  rcases hall _ h with h | h | h <;> simp [parityBits, State.parityMode, State.parityFlag, parityOf, h]

theorem fmtOk_parityCode {s : State} (h : s.fmtOk = true) : s.parityCode ≠ 3#2 := by
  simp only [State.fmtOk, Bool.and_eq_true, decide_eq_true_eq] at h
  exact h.2

theorem charBits_length {s : State} (h : s.fmtOk = true) (b : Byte) : (charBits s b).length = s.frameBits := by
  simp only [charBits, List.length_append, List.length_map, List.length_range, List.length_replicate,
    List.length_cons, List.length_nil, parityBits_length s b (fmtOk_parityCode h), State.frameBits]

theorem flatMap_length_const {α β : Type} (f : α → List β) (n : Nat) (hf : ∀ a, (f a).length = n) (l : List α) :
    (l.flatMap f).length = l.length * n := by
  induction l with
  | nil => simp
  | cons a l ih => simp [hf, ih, Nat.add_mul]; omega

theorem frameEnc_length {s : State} (h : s.fmtOk = true) (b : Byte) : (frameEnc s b).length = s.charLen := by
  rw [frameEnc, flatMap_length_const _ s.samplesPerBit (by simp), charBits_length h, State.charLen]

theorem encodeStream_length {s : State} (h : s.fmtOk = true) (bs : List Byte) :
    (encodeStream s bs).length = bs.length * s.charLen :=
  flatMap_length_const _ _ (frameEnc_length h) bs

theorem encodeTotal_eq (s : State) : encodeTotal s = s.txbCount.toNat * s.charLen := by
  rw [encodeTotal, State.charLen, Nat.mul_assoc]

/-! ### The checked configuration -/

theorem baudOk_iff (s : State) :
    s.baudOk = true ↔ 1 ≤ s.baud.toInt ∧ s.baud.toInt ≤ (s.params.sampleRate : Int) := by
  simp [State.baudOk]

theorem samplesPerBit_pos {s : State} (h : s.baudOk = true) : 1 ≤ s.samplesPerBit := by
  obtain ⟨h1, h2⟩ := (baudOk_iff s).1 h
  exact (Nat.one_le_div_iff (by omega)).2 (by omega)

theorem samplesPerBit_le (s : State) : s.samplesPerBit ≤ s.params.sampleRate := Nat.div_le_self _ _

theorem frameBits_bounds {s : State} (h : s.fmtOk = true) : 3 ≤ s.frameBits ∧ s.frameBits ≤ 265 := by
  simp only [State.fmtOk, Bool.and_eq_true, decide_eq_true_eq] at h
  have hs : s.stopBits < 2 ^ 8 := BitVec.isLt _
  simp only [State.frameBits, State.parityFlag]
  split <;> omega

theorem charLen_pos {s : State} (hb : s.baudOk = true) (hf : s.fmtOk = true) : 1 ≤ s.charLen :=
  Nat.mul_pos (by have := frameBits_bounds hf; omega) (samplesPerBit_pos hb)

/-- A window of a character lies inside it. -/
theorem window_in_character (s : State) {w : Nat} (hw : w < s.frameBits) :
    w * s.samplesPerBit + s.samplesPerBit ≤ s.charLen := by
  rw [← Nat.succ_mul, State.charLen]
  exact Nat.mul_le_mul_right _ hw

/-- What a well-formed instance says about its numbers. -/
theorem params_ok_iff (p : Params) : p.ok = true ↔
    ((0 < p.sampleRate ∧ p.sampleRate < 2 ^ 32) ∧ 0 < p.fSpace ∧ p.fSpace < p.fMark ∧ p.fMark ≤ p.sampleRate / 2) ∧
    (0 < p.ampPos.toInt ∧ p.ampNeg.toInt < 0) ∧
    ((0 < p.cap ∧ p.cap < 2 ^ 32) ∧ 0 < p.txbCapacity ∧ (0 < p.txsCapacity ∧ p.txsCapacity < 2 ^ 32) ∧
      0 < p.rxsCapacity ∧ p.rxsCapacity < 2 ^ 32) := by
  simp only [Params.ok, Params.ratesOk, Params.ampsOk, Params.capacitiesOk, Bool.and_eq_true, decide_eq_true_eq]
  tauto

/-! ### The bodies -/

theorem appendSamples_cases (vs : List Sample) (s : State) :
    (s.txsCount.toNat + vs.length ≤ s.params.txsCapacity ∧
      appendSamples vs s =
        setTxsCount (s.txsCount.toNat + vs.length) (writeSamples .txs s.txsCount.toNat vs s)) ∨
    (s.params.txsCapacity < s.txsCount.toNat + vs.length ∧ appendSamples vs s = raise .alloc s) := by
  unfold appendSamples
  split
  · exact .inr ⟨‹_›, rfl⟩
  · exact .inl ⟨by omega, rfl⟩

theorem parityBody_cases (s : State) :
    (∃ m, ((s.parityCode = 1#2 ∧ m = .even) ∨ (s.parityCode = 2#2 ∧ m = .odd)) ∧
      parityBody s = setResult (BitVec.zeroExtend 8 (BitVec.ofBool (computeParity s.argByte m))) false s) ∨
    (s.parityCode ≠ 1#2 ∧ s.parityCode ≠ 2#2 ∧ parityBody s = raise .invalid s) := by
  unfold parityBody State.parityMode parityOf
  by_cases h1 : s.parityCode = 1#2
  · exact .inl ⟨.even, .inl ⟨h1, rfl⟩, by rw [if_pos h1]⟩
  · by_cases h2 : s.parityCode = 2#2
    · exact .inl ⟨.odd, .inr ⟨h2, rfl⟩, by rw [if_neg h1, if_pos h2]⟩
    · exact .inr ⟨h1, h2, by rw [if_neg h1, if_neg h2]⟩

theorem synthBody_cases (s : State) :
    (s.baudOk = true ∧ s.txsCount.toNat + s.samplesPerBit ≤ s.params.txsCapacity ∧
      synthBody s = setTxsCount (s.txsCount.toNat + s.samplesPerBit)
        (writeSamples .txs s.txsCount.toNat (synth s.params s.argBit s.samplesPerBit) (latchSpb s))) ∨
    (s.baudOk = true ∧ s.params.txsCapacity < s.txsCount.toNat + s.samplesPerBit ∧
      synthBody s = raise .alloc (latchSpb s)) ∨
    (s.baudOk = false ∧ synthBody s = raise .invalid (latchSpbOnInvalid s)) := by
  unfold synthBody
  split
  · rcases appendSamples_cases (synth s.params s.argBit s.samplesPerBit) (latchSpb s) with ⟨h, he⟩ | ⟨h, he⟩
    · exact .inl ⟨‹_›, by simpa using h, by rw [he]; simp⟩
    · exact .inr (.inl ⟨‹_›, by simpa using h, he⟩)
  · rename_i h
    exact .inr (.inr ⟨by simpa using h, rfl⟩)

theorem frameEncBody_cases (s : State) :
    ((s.baudOk = true ∧ s.fmtOk = true) ∧ s.txsCount.toNat + s.charLen ≤ s.params.txsCapacity ∧
      frameEncBody s = setTxsCount (s.txsCount.toNat + s.charLen)
        (writeSamples .txs s.txsCount.toNat (frameEnc s s.argByte) (latchSpb s))) ∨
    ((s.baudOk = true ∧ s.fmtOk = true) ∧ s.params.txsCapacity < s.txsCount.toNat + s.charLen ∧
      frameEncBody s = raise .alloc (latchSpb s)) ∨
    ((s.baudOk = false ∨ s.fmtOk = false) ∧ frameEncBody s = raise .invalid (latchSpbOnInvalid s)) := by
  unfold frameEncBody
  split
  · rename_i h
    rw [Bool.and_eq_true] at h
    have hl := frameEnc_length h.2 s.argByte
    rcases appendSamples_cases (frameEnc s s.argByte) (latchSpb s) with ⟨ha, he⟩ | ⟨ha, he⟩
    · rw [hl] at ha he
      exact .inl ⟨h, ha, he⟩
    · rw [hl] at ha
      exact .inr (.inl ⟨h, ha, he⟩)
  · rename_i h
    refine .inr (.inr ⟨?_, rfl⟩)
    cases hb : s.baudOk <;> simp_all

theorem rxsFits_iff (s : State) : s.rxsFits = true ↔ s.rxsCount.toNat ≤ s.params.rxsCapacity := by
  simp [State.rxsFits]

theorem txbFits_iff (s : State) :
    s.txbFits = true ↔ s.txbCount.toNat ≠ 0 ∧ s.txbCount.toNat ≤ s.params.txbCapacity := by
  simp only [State.txbFits, Bool.and_eq_true, decide_eq_true_eq]

theorem classifyBody_cases (s : State) :
    ((s.baudOk = true ∧ s.rxsCount.toNat ≤ s.params.rxsCapacity) ∧
      s.rxpos.toNat + s.samplesPerBit ≤ s.rxsCount.toNat ∧
      classifyBody s = setResult (BitVec.zeroExtend 8 (BitVec.ofBool (classifyAt s s.rxpos.toNat))) false
        (setXcount (crossingsAt s s.rxpos.toNat) (latchSpb s))) ∨
    ((s.baudOk = true ∧ s.rxsCount.toNat ≤ s.params.rxsCapacity) ∧
      s.rxsCount.toNat < s.rxpos.toNat + s.samplesPerBit ∧ classifyBody s = raise .range (latchSpb s)) ∨
    (¬ (s.baudOk = true ∧ s.rxsCount.toNat ≤ s.params.rxsCapacity) ∧ classifyBody s = raise .invalid (latchSpbOnInvalid s)) := by
  unfold classifyBody
  split
  · rename_i h
    rw [Bool.and_eq_true, rxsFits_iff] at h
    split
    · exact .inr (.inl ⟨h, ‹_›, rfl⟩)
    · exact .inl ⟨h, by omega, rfl⟩
  · rename_i h
    rw [Bool.and_eq_true, rxsFits_iff] at h
    exact .inr (.inr ⟨h, rfl⟩)

theorem frameDecBody_cases (s : State) :
    ((s.baudOk = true ∧ s.fmtOk = true ∧ s.rxsCount.toNat ≤ s.params.rxsCapacity) ∧
      s.rxpos.toNat + s.charLen ≤ s.rxsCount.toNat ∧ classifyAt s s.rxpos.toNat = false ∧
      frameDecBody s = setRxpos (s.rxpos.toNat + s.charLen)
        (setResult (BitVec.ofNat 8 (frameByte s s.rxpos.toNat)) true
          (setXcount (crossingsAt s (windowPos s s.rxpos.toNat s.dataBits)) (latchSpb s)))) ∨
    ((s.baudOk = true ∧ s.fmtOk = true ∧ s.rxsCount.toNat ≤ s.params.rxsCapacity) ∧
      s.rxpos.toNat + s.charLen ≤ s.rxsCount.toNat ∧ classifyAt s s.rxpos.toNat = true ∧
      frameDecBody s = setResult 0#8 false (setXcount (crossingsAt s s.rxpos.toNat) (latchSpb s))) ∨
    ((s.baudOk = true ∧ s.fmtOk = true ∧ s.rxsCount.toNat ≤ s.params.rxsCapacity) ∧
      s.rxsCount.toNat < s.rxpos.toNat + s.charLen ∧ frameDecBody s = raise .range (latchSpb s)) ∨
    (¬ (s.baudOk = true ∧ s.fmtOk = true ∧ s.rxsCount.toNat ≤ s.params.rxsCapacity) ∧
      frameDecBody s = raise .invalid (latchSpbOnInvalid s)) := by
  unfold frameDecBody
  split
  · rename_i h
    rw [Bool.and_eq_true, Bool.and_eq_true, rxsFits_iff, and_assoc] at h
    split
    · exact .inr (.inr (.inl ⟨h, ‹_›, rfl⟩))
    · cases hc : classifyAt s s.rxpos.toNat
      · exact .inl ⟨h, by omega, rfl, by simp [frameDec, hc]⟩
      · exact .inr (.inl ⟨h, by omega, rfl, by simp [frameDec, hc]⟩)
  · rename_i h
    rw [Bool.and_eq_true, Bool.and_eq_true, rxsFits_iff, and_assoc] at h
    exact .inr (.inr (.inr ⟨h, rfl⟩))

theorem encodeWith_cases (go : State → State) (s : State) :
    ((s.baudOk = true ∧ s.fmtOk = true ∧ s.txbCount.toNat ≠ 0 ∧ s.txbCount.toNat ≤ s.params.txbCapacity) ∧
      encodeTotal s ≤ s.params.txsCapacity ∧ encodeWith go s = go (latchSpb (setTxsCount 0 s))) ∨
    ((s.baudOk = true ∧ s.fmtOk = true ∧ s.txbCount.toNat ≠ 0 ∧ s.txbCount.toNat ≤ s.params.txbCapacity) ∧
      s.params.txsCapacity < encodeTotal s ∧ encodeWith go s = raise .alloc (latchSpb (setTxsCount 0 s))) ∨
    (¬ (s.baudOk = true ∧ s.fmtOk = true ∧ s.txbCount.toNat ≠ 0 ∧ s.txbCount.toNat ≤ s.params.txbCapacity) ∧
      encodeWith go s = raise .invalid (latchSpbOnInvalid (setTxsCount 0 s))) := by
  unfold encodeWith
  split
  · rename_i h
    rw [Bool.and_eq_true, Bool.and_eq_true, txbFits_iff, and_assoc] at h
    split
    · exact .inr (.inl ⟨h, ‹_›, rfl⟩)
    · exact .inl ⟨h, by omega, rfl⟩
  · rename_i h
    rw [Bool.and_eq_true, Bool.and_eq_true, txbFits_iff, and_assoc] at h
    exact .inr (.inr ⟨h, rfl⟩)

theorem decodeWith_cases (go : State → State) (s : State) :
    ((s.baudOk = true ∧ s.fmtOk = true ∧ s.rxsCount.toNat ≤ s.params.rxsCapacity) ∧
      decodeWith go s = go (latchSpb (setRxpos 0 (setRxbCount 0 s)))) ∨
    (¬ (s.baudOk = true ∧ s.fmtOk = true ∧ s.rxsCount.toNat ≤ s.params.rxsCapacity) ∧
      decodeWith go s = raise .invalid (latchSpbOnInvalid (setRxpos 0 (setRxbCount 0 s)))) := by
  unfold decodeWith
  split
  · rename_i h
    rw [Bool.and_eq_true, Bool.and_eq_true, rxsFits_iff, and_assoc] at h
    exact .inl ⟨h, rfl⟩
  · rename_i h
    rw [Bool.and_eq_true, Bool.and_eq_true, rxsFits_iff, and_assoc] at h
    exact .inr ⟨h, rfl⟩

/-- What one candidate position gives (42_frame_codec.md R109). -/
theorem frameDec_cases (s : State) (pos : Nat) :
    (classifyAt s pos = true ∧ frameDec s pos = .rejected pos) ∨
    (classifyAt s pos = false ∧
      frameDec s pos = .accepted (BitVec.ofNat 8 (frameByte s pos)) (pos + s.charLen) (windowPos s pos s.dataBits)) := by
  cases h : classifyAt s pos
  · exact .inr ⟨rfl, by simp [frameDec, h]⟩
  · exact .inl ⟨rfl, by simp [frameDec, h]⟩

end Sys2Proof.Machine
end

