-- ==== Sys2Proof/Laws/Receive.lean ====
section
/-! SUPPORT. The loop of the receive pass: one iteration, enough fuel, where it ends, and what it depends on. -/

namespace Sys2Proof.Machine

/-- A sum of bits at rising places has those bits. -/
theorem bitSum_testBit (f : Nat → Bool) : ∀ n,
    ((List.range n).map (fun k => (f k).toNat * 2 ^ k)).sum < 2 ^ n ∧
    ∀ j, ((List.range n).map (fun k => (f k).toNat * 2 ^ k)).sum.testBit j = (decide (j < n) && f j) := by
  intro n
  induction n with
  | zero => simp
  | succ n ih =>
    obtain ⟨hlt, hbit⟩ := ih
    rw [List.range_succ, List.map_append, List.sum_append]
    simp only [List.map_cons, List.map_nil, List.sum_cons, List.sum_nil, Nat.add_zero]
    refine ⟨?_, fun j => ?_⟩
    · have : (f n).toNat ≤ 1 := Bool.toNat_le _
      have := Nat.mul_le_mul_right (2 ^ n) this
      rw [Nat.pow_succ]
      omega
    · rw [Nat.add_comm, Nat.mul_comm, Nat.testBit_two_pow_mul_add _ hlt, hbit]
      by_cases h : j < n
      · simp [h, (by omega : j < n + 1)]
      · rw [if_neg h]
        by_cases h2 : j = n
        · subst h2
          cases f j <;> simp
        · obtain ⟨m, hm⟩ : ∃ m, j - n = m + 1 := ⟨j - n - 1, by omega⟩
          rw [hm, (show decide (j < n + 1) = false by simp; omega)]
          cases f n <;> simp [Nat.testBit_succ]

/-- The bits of the byte of a character (42_frame_codec.md R109). -/
theorem frameByte_getLsbD (s : State) (pos : Nat) {k : Nat} (hk : k < 8) :
    (BitVec.ofNat 8 (frameByte s pos)).getLsbD k =
      (decide (k < s.dataBits) && classifyAt s (windowPos s pos (k + 1))) := by
  rw [BitVec.getLsbD_ofNat, frameByte, (bitSum_testBit (fun k => classifyAt s (windowPos s pos (k + 1))) _).2]
  simp [hk]

/-- One iteration of the loop (43_modem_stream.md R124). -/
theorem decodeLoop_succ (s : State) (n pos : Nat) (out : List Byte) (xc : Word) :
    decodeLoop s (n + 1) pos out xc =
      if pos + s.charLen > s.rxsCount.toNat then ⟨out, pos, false, xc⟩
      else if out.length = s.params.cap then ⟨out, pos, true, xc⟩
      else if classifyAt s pos then decodeLoop s n (pos + 1) out (BitVec.ofNat 32 (crossingsAt s pos))
      else decodeLoop s n (pos + s.charLen) (out ++ [BitVec.ofNat 8 (frameByte s pos)])
        (BitVec.ofNat 32 (crossingsAt s (windowPos s pos s.dataBits))) := by
  rw [decodeLoop]
  rcases frameDec_cases s pos with ⟨hc, hf⟩ | ⟨hc, hf⟩ <;> simp [hc, hf]

/-- Fuel beyond what the remaining samples need changes nothing (43_modem_stream.md R129). -/
theorem decodeLoop_fuel {s : State} (hL : 1 ≤ s.charLen) : ∀ (n m pos : Nat) (out : List Byte) (xc : Word),
    s.rxsCount.toNat + 1 ≤ pos + n → s.rxsCount.toNat + 1 ≤ pos + m →
    decodeLoop s n pos out xc = decodeLoop s m pos out xc := by
  have hend : ∀ (m pos : Nat) (out : List Byte) (xc : Word), pos + s.charLen > s.rxsCount.toNat →
      decodeLoop s m pos out xc = ⟨out, pos, false, xc⟩ := by
    intro m pos out xc h
    cases m with
    | zero => rfl
    | succ m => rw [decodeLoop_succ, if_pos h]
  intro n
  induction n with
  | zero =>
    intro m pos out xc hn _
    rw [hend 0 _ _ _ (by omega), hend m _ _ _ (by omega)]
  | succ n ih =>
    intro m pos out xc hn hm
    by_cases h : pos + s.charLen > s.rxsCount.toNat
    · rw [hend _ _ _ _ h, hend _ _ _ _ h]
    · cases m with
      | zero => omega
      | succ m =>
        rw [decodeLoop_succ, decodeLoop_succ, ih m (pos + 1) _ _ (by omega) (by omega),
          ih m (pos + s.charLen) _ _ (by omega) (by omega)]

/-- Where the loop ends, from a position and an output that fit (43_modem_stream.md R128, R129). -/
structure EndsWithin (s : State) (e : DecodeEnd) : Prop where
  pos : e.pos ≤ s.rxsCount.toNat
  cap : e.out.length ≤ s.params.cap
  used : e.out.length * s.charLen ≤ e.pos
  truncated : e.trunc = true → e.out.length = s.params.cap ∧ e.pos + s.charLen ≤ s.rxsCount.toNat
  exhausted : e.trunc = false → s.rxsCount.toNat < e.pos + s.charLen

theorem decodeLoop_ends {s : State} (hL : 1 ≤ s.charLen) : ∀ (n pos : Nat) (out : List Byte) (xc : Word),
    pos ≤ s.rxsCount.toNat → s.rxsCount.toNat + 1 ≤ pos + n → out.length ≤ s.params.cap →
    out.length * s.charLen ≤ pos → EndsWithin s (decodeLoop s n pos out xc) := by
  intro n
  induction n with
  | zero => intro pos out xc h1 h2; omega
  | succ n ih =>
    intro pos out xc h1 h2 h3 h4
    rw [decodeLoop_succ]
    split
    · exact ⟨h1, h3, h4, fun h => (Bool.false_ne_true h).elim, fun _ => by simpa using ‹_›⟩
    · split
      · exact ⟨h1, h3, h4, fun _ => ⟨‹_›, by simp only; omega⟩, fun h => (Bool.false_ne_true h.symm).elim⟩
      · split
        · exact ih _ _ _ (by omega) (by omega) h3 (by omega)
        · refine ih _ _ _ (by omega) (by omega) ?_ ?_
          · simp only [List.length_append, List.length_cons, List.length_nil]
            omega
          · simp only [List.length_append, List.length_cons, List.length_nil, Nat.add_mul]
            omega

theorem decodeStream_ends {s : State} (hL : 1 ≤ s.charLen) : EndsWithin s (decodeStream s) :=
  decodeLoop_ends hL _ _ _ _ (by omega) (by omega) (by simp) (by simp)

/-! ### What it depends on -/

/-- Two states that agree on what the receive side reads: the configuration and the samples below `n`. -/
structure SameReceiveInput (n : Nat) (s t : State) : Prop where
  params : t.params = s.params
  format : t.format = s.format
  baud : t.baud = s.baud
  rxsCount : t.rxsCount = s.rxsCount
  samples : ∀ a, a < n → readSample t .rxs a = readSample s .rxs a

theorem SameReceiveInput.spb {n : Nat} {s t : State} (h : SameReceiveInput n s t) :
    t.samplesPerBit = s.samplesPerBit := by
  simp [State.samplesPerBit, h.params, h.baud]

theorem frameBits_congr {s t : State} (h : t.format = s.format) : t.frameBits = s.frameBits := by
  unfold State.frameBits State.dataBits State.parityFlag State.parityCode State.stopBits
  rw [h]

theorem SameReceiveInput.charLen {n : Nat} {s t : State} (h : SameReceiveInput n s t) : t.charLen = s.charLen := by
  rw [State.charLen, State.charLen, frameBits_congr h.format, h.spb]

theorem rxWindow_congr {n : Nat} {s t : State} (h : SameReceiveInput n s t) {pos : Nat}
    (hp : pos + s.samplesPerBit ≤ n) : rxWindow t pos = rxWindow s pos := by
  rw [rxWindow, rxWindow, readSampleBlock_eq, readSampleBlock_eq, h.spb]
  exact List.map_congr_left (fun k hk => h.samples _ (by have := List.mem_range.1 hk; omega))

theorem crossingsAt_congr {n : Nat} {s t : State} (h : SameReceiveInput n s t) {pos : Nat}
    (hp : pos + s.samplesPerBit ≤ n) : crossingsAt t pos = crossingsAt s pos := by
  rw [crossingsAt, crossingsAt, rxWindow_congr h hp]

theorem classifyAt_congr {n : Nat} {s t : State} (h : SameReceiveInput n s t) {pos : Nat}
    (hp : pos + s.samplesPerBit ≤ n) : classifyAt t pos = classifyAt s pos := by
  rw [classifyAt, classifyAt, rxWindow_congr h hp, h.params]

/-- A data window of the character at `pos` lies inside it. -/
theorem dataWindow_le (s : State) (pos : Nat) {k : Nat} (hk : k ≤ s.dataBits) :
    windowPos s pos k + s.samplesPerBit ≤ pos + s.charLen := by
  by_cases h : k < s.frameBits
  · have := window_in_character s h
    simp only [windowPos]
    omega
  · have : s.frameBits = 1 + s.dataBits + s.parityFlag + s.stopBits := rfl
    omega

theorem frameByte_congr {n : Nat} {s t : State} (h : SameReceiveInput n s t) {pos : Nat}
    (hp : pos + s.charLen ≤ n) : frameByte t pos = frameByte s pos := by
  have hd : t.dataBits = s.dataBits := by simp [State.dataBits, h.format]
  rw [frameByte, frameByte, hd]
  congr 1
  refine List.map_congr_left (fun k hk => ?_)
  have hk := List.mem_range.1 hk
  have := dataWindow_le s pos (show k + 1 ≤ s.dataBits by omega)
  have hw : windowPos t pos (k + 1) = windowPos s pos (k + 1) := by simp [windowPos, h.spb]
  rw [hw, classifyAt_congr h (by omega)]

/-- The loop depends on nothing but that. -/
theorem decodeLoop_congr {s t : State} (h : SameReceiveInput s.rxsCount.toNat s t) :
    ∀ (n pos : Nat) (out : List Byte) (xc : Word), decodeLoop t n pos out xc = decodeLoop s n pos out xc := by
  have hd : t.dataBits = s.dataBits := by rw [State.dataBits, State.dataBits, h.format]
  intro n
  induction n with
  | zero => intro pos out xc; rfl
  | succ n ih =>
    intro pos out xc
    rw [decodeLoop_succ, decodeLoop_succ, h.charLen, h.rxsCount, h.params]
    by_cases h1 : pos + s.charLen > s.rxsCount.toNat
    · rw [if_pos h1, if_pos h1]
    · have h0 := dataWindow_le s pos (Nat.zero_le s.dataBits)
      have h2 := dataWindow_le s pos (Nat.le_refl s.dataBits)
      simp only [windowPos] at h0 h2
      rw [classifyAt_congr h (by omega), frameByte_congr h (by omega), crossingsAt_congr h (by omega), hd,
        windowPos, windowPos, h.spb, crossingsAt_congr h (by omega)]
      simp only [ih]

/-- The count carried along decides nothing but the count at the end. -/
theorem decodeLoop_xcount (s : State) : ∀ (n pos : Nat) (out : List Byte) (xc xc' : Word),
    (decodeLoop s n pos out xc').out = (decodeLoop s n pos out xc).out ∧
    (decodeLoop s n pos out xc').pos = (decodeLoop s n pos out xc).pos ∧
    (decodeLoop s n pos out xc').trunc = (decodeLoop s n pos out xc).trunc := by
  intro n
  induction n with
  | zero => intro pos out xc xc'; exact ⟨rfl, rfl, rfl⟩
  | succ n ih =>
    intro pos out xc xc'
    rw [decodeLoop_succ, decodeLoop_succ]
    split
    · exact ⟨rfl, rfl, rfl⟩
    · split
      · exact ⟨rfl, rfl, rfl⟩
      · split <;> exact ih _ _ _ _

/-- Writing the result registers of the receive pass leaves its input as it is. -/
theorem decodeStream_congr {s t : State} (h : SameReceiveInput s.rxsCount.toNat s t) (hx : t.xcount = s.xcount) :
    decodeStream t = decodeStream s := by
  rw [decodeStream, decodeStream, h.rxsCount, hx, decodeLoop_congr h]

end Sys2Proof.Machine
end

