-- ==== Sys2Proof/Laws/Execs.lean ====
section
/-! SUPPORT. What `exec` answers for every command, over the state it starts from: the outcomes of the body lemmas of
Sys2Proof/Laws/Commands.lean with acceptance and completion around them. -/

namespace Sys2Proof.Machine

theorem exec_nop (s : State) : exec .nop s = .next (complete (accept s)) := rfl

theorem exec_parity_cases (s : State) :
    (∃ m, ((s.parityCode = 1#2 ∧ m = .even) ∨ (s.parityCode = 2#2 ∧ m = .odd)) ∧
      exec .parity s = .next (complete
        (setResult (BitVec.zeroExtend 8 (BitVec.ofBool (computeParity s.argByte m))) false (accept s)))) ∨
    (s.parityCode ≠ 1#2 ∧ s.parityCode ≠ 2#2 ∧ exec .parity s = .next (complete (raise .invalid (accept s)))) := by
  rcases parityBody_cases (accept s) with ⟨m, hm, h⟩ | ⟨h1, h2, h⟩
  · exact .inl ⟨m, hm, by rw [exec, execParity, command, h]; rfl⟩
  · exact .inr ⟨h1, h2, by rw [exec, execParity, command, h]⟩

theorem exec_synth_cases (s : State) :
    (s.baudOk = true ∧ s.txsCount.toNat + s.samplesPerBit ≤ s.params.txsCapacity ∧
      exec .synth s = .next (complete (setTxsCount (s.txsCount.toNat + s.samplesPerBit)
        (writeSamples .txs s.txsCount.toNat (synth s.params s.argBit s.samplesPerBit) (latchSpb (accept s)))))) ∨
    (s.baudOk = true ∧ s.params.txsCapacity < s.txsCount.toNat + s.samplesPerBit ∧
      exec .synth s = .next (complete (raise .alloc (latchSpb (accept s))))) ∨
    (s.baudOk = false ∧ exec .synth s = .next (complete (raise .invalid (latchSpbOnInvalid (accept s))))) := by
  rcases synthBody_cases (accept s) with ⟨h1, h2, h⟩ | ⟨h1, h2, h⟩ | ⟨h1, h⟩
  · exact .inl ⟨h1, h2, by rw [exec, execSynth, command, h]; rfl⟩
  · exact .inr (.inl ⟨h1, h2, by rw [exec, execSynth, command, h]⟩)
  · exact .inr (.inr ⟨h1, by rw [exec, execSynth, command, h]⟩)

theorem exec_classify_cases (s : State) :
    ((s.baudOk = true ∧ s.rxsCount.toNat ≤ s.params.rxsCapacity) ∧
      s.rxpos.toNat + s.samplesPerBit ≤ s.rxsCount.toNat ∧
      exec .classify s = .next (complete
        (setResult (BitVec.zeroExtend 8 (BitVec.ofBool (classifyAt s s.rxpos.toNat))) false
          (setXcount (crossingsAt s s.rxpos.toNat) (latchSpb (accept s)))))) ∨
    ((s.baudOk = true ∧ s.rxsCount.toNat ≤ s.params.rxsCapacity) ∧
      s.rxsCount.toNat < s.rxpos.toNat + s.samplesPerBit ∧
      exec .classify s = .next (complete (raise .range (latchSpb (accept s))))) ∨
    (¬ (s.baudOk = true ∧ s.rxsCount.toNat ≤ s.params.rxsCapacity) ∧
      exec .classify s = .next (complete (raise .invalid (latchSpbOnInvalid (accept s))))) := by
  rcases classifyBody_cases (accept s) with ⟨h1, h2, h⟩ | ⟨h1, h2, h⟩ | ⟨h1, h⟩
  · exact .inl ⟨h1, h2, by rw [exec, execClassify, command, h]; rfl⟩
  · exact .inr (.inl ⟨h1, h2, by rw [exec, execClassify, command, h]⟩)
  · exact .inr (.inr ⟨h1, by rw [exec, execClassify, command, h]⟩)

theorem exec_frameEnc_cases (s : State) :
    ((s.baudOk = true ∧ s.fmtOk = true) ∧ s.txsCount.toNat + s.charLen ≤ s.params.txsCapacity ∧
      exec .frameEnc s = .next (complete (setTxsCount (s.txsCount.toNat + s.charLen)
        (writeSamples .txs s.txsCount.toNat (frameEnc s s.argByte) (latchSpb (accept s)))))) ∨
    ((s.baudOk = true ∧ s.fmtOk = true) ∧ s.params.txsCapacity < s.txsCount.toNat + s.charLen ∧
      exec .frameEnc s = .next (complete (raise .alloc (latchSpb (accept s))))) ∨
    ((s.baudOk = false ∨ s.fmtOk = false) ∧ exec .frameEnc s = .next (complete (raise .invalid (latchSpbOnInvalid (accept s))))) := by
  rcases frameEncBody_cases (accept s) with ⟨h1, h2, h⟩ | ⟨h1, h2, h⟩ | ⟨h1, h⟩
  · exact .inl ⟨h1, h2, by rw [exec, execFrameEnc, command, h]; rfl⟩
  · exact .inr (.inl ⟨h1, h2, by rw [exec, execFrameEnc, command, h]⟩)
  · exact .inr (.inr ⟨h1, by rw [exec, execFrameEnc, command, h]⟩)

theorem exec_frameDec_cases (s : State) :
    ((s.baudOk = true ∧ s.fmtOk = true ∧ s.rxsCount.toNat ≤ s.params.rxsCapacity) ∧
      s.rxpos.toNat + s.charLen ≤ s.rxsCount.toNat ∧ classifyAt s s.rxpos.toNat = false ∧
      exec .frameDec s = .next (complete (setRxpos (s.rxpos.toNat + s.charLen)
        (setResult (BitVec.ofNat 8 (frameByte s s.rxpos.toNat)) true
          (setXcount (crossingsAt s (windowPos s s.rxpos.toNat s.dataBits)) (latchSpb (accept s))))))) ∨
    ((s.baudOk = true ∧ s.fmtOk = true ∧ s.rxsCount.toNat ≤ s.params.rxsCapacity) ∧
      s.rxpos.toNat + s.charLen ≤ s.rxsCount.toNat ∧ classifyAt s s.rxpos.toNat = true ∧
      exec .frameDec s = .next (complete
        (setResult 0#8 false (setXcount (crossingsAt s s.rxpos.toNat) (latchSpb (accept s)))))) ∨
    ((s.baudOk = true ∧ s.fmtOk = true ∧ s.rxsCount.toNat ≤ s.params.rxsCapacity) ∧
      s.rxsCount.toNat < s.rxpos.toNat + s.charLen ∧
      exec .frameDec s = .next (complete (raise .range (latchSpb (accept s))))) ∨
    (¬ (s.baudOk = true ∧ s.fmtOk = true ∧ s.rxsCount.toNat ≤ s.params.rxsCapacity) ∧
      exec .frameDec s = .next (complete (raise .invalid (latchSpbOnInvalid (accept s))))) := by
  rcases frameDecBody_cases (accept s) with ⟨h1, h2, h3, h⟩ | ⟨h1, h2, h3, h⟩ | ⟨h1, h2, h⟩ | ⟨h1, h⟩
  · exact .inl ⟨h1, h2, h3, by rw [exec, execFrameDec, command, h]; rfl⟩
  · exact .inr (.inl ⟨h1, h2, h3, by rw [exec, execFrameDec, command, h]; rfl⟩)
  · exact .inr (.inr (.inl ⟨h1, h2, by rw [exec, execFrameDec, command, h]⟩))
  · exact .inr (.inr (.inr ⟨h1, by rw [exec, execFrameDec, command, h]⟩))

theorem exec_encode_cases (s : State) :
    ((s.baudOk = true ∧ s.fmtOk = true ∧ s.txbCount.toNat ≠ 0 ∧ s.txbCount.toNat ≤ s.params.txbCapacity) ∧
      encodeTotal s ≤ s.params.txsCapacity ∧
      exec .encode s = .next (complete (setTxsCount (encodeTotal s)
        (writeSamples .txs 0 (encodeStream s (payload s)) (latchSpb (setTxsCount 0 (accept s))))))) ∨
    ((s.baudOk = true ∧ s.fmtOk = true ∧ s.txbCount.toNat ≠ 0 ∧ s.txbCount.toNat ≤ s.params.txbCapacity) ∧
      s.params.txsCapacity < encodeTotal s ∧
      exec .encode s = .next (complete (raise .alloc (latchSpb (setTxsCount 0 (accept s)))))) ∨
    (¬ (s.baudOk = true ∧ s.fmtOk = true ∧ s.txbCount.toNat ≠ 0 ∧ s.txbCount.toNat ≤ s.params.txbCapacity) ∧
      exec .encode s = .next (complete (raise .invalid (latchSpbOnInvalid (setTxsCount 0 (accept s)))))) := by
  rcases encodeWith_cases encodeWrite (accept s) with ⟨h1, h2, h⟩ | ⟨h1, h2, h⟩ | ⟨h1, h⟩
  · exact .inl ⟨h1, h2, by rw [exec, execEncode, command, encodeBody, h]; rfl⟩
  · exact .inr (.inl ⟨h1, h2, by rw [exec, execEncode, command, encodeBody, h]⟩)
  · exact .inr (.inr ⟨h1, by rw [exec, execEncode, command, encodeBody, h]⟩)

/-- What `DECODE` leaves, over the end of the loop on the state it starts from. -/
def decodeLeaves (s : State) (e : DecodeEnd) : State :=
  complete (decodeFinish e (latchSpb (setRxpos 0 (setRxbCount 0 (accept s)))))

theorem exec_decode_cases (s : State) :
    ((s.baudOk = true ∧ s.fmtOk = true ∧ s.rxsCount.toNat ≤ s.params.rxsCapacity) ∧
      exec .decode s = .next (decodeLeaves s (decodeStream s))) ∨
    (¬ (s.baudOk = true ∧ s.fmtOk = true ∧ s.rxsCount.toNat ≤ s.params.rxsCapacity) ∧
      exec .decode s = .next (complete (raise .invalid (latchSpbOnInvalid (setRxpos 0 (setRxbCount 0 (accept s))))))) := by
  rcases decodeWith_cases decodeRun (accept s) with ⟨h1, h⟩ | ⟨h1, h⟩
  · refine .inl ⟨h1, ?_⟩
    rw [exec, execDecode, command, decodeBody, h, decodeRun,
      decodeStream_congr (s := s) (t := latchSpb (setRxpos 0 (setRxbCount 0 (accept s))))
        ⟨rfl, rfl, rfl, rfl, fun _ _ => rfl⟩ rfl]
    rfl
  · exact .inr ⟨h1, by rw [exec, execDecode, command, decodeBody, h]⟩

variable (s : State) (e : DecodeEnd)

@[simp] theorem decodeLeaves_status : (decodeLeaves s e).status = ⟨false, true, e.trunc, .none⟩ := by simp [decodeLeaves, decodeFinish]
@[simp] theorem decodeLeaves_rxState : (decodeLeaves s e).rxState = .idle := by simp [decodeLeaves, decodeFinish]
@[simp] theorem decodeLeaves_running : (decodeLeaves s e).running = none := by simp [decodeLeaves, decodeFinish]
@[simp] theorem decodeLeaves_params : (decodeLeaves s e).params = s.params := by simp [decodeLeaves, decodeFinish]
@[simp] theorem decodeLeaves_format : (decodeLeaves s e).format = s.format := by simp [decodeLeaves, decodeFinish]
@[simp] theorem decodeLeaves_baud : (decodeLeaves s e).baud = s.baud := by simp [decodeLeaves, decodeFinish]
@[simp] theorem decodeLeaves_arg : (decodeLeaves s e).arg = s.arg := by simp [decodeLeaves, decodeFinish]
@[simp] theorem decodeLeaves_result : (decodeLeaves s e).result = s.result := by simp [decodeLeaves, decodeFinish]
@[simp] theorem decodeLeaves_xcount : (decodeLeaves s e).xcount = e.xc := by simp [decodeLeaves, decodeFinish]
@[simp] theorem decodeLeaves_spb : (decodeLeaves s e).spb = BitVec.ofNat 32 s.samplesPerBit := by simp [decodeLeaves, decodeFinish]
@[simp] theorem decodeLeaves_txbCount : (decodeLeaves s e).txbCount = s.txbCount := by simp [decodeLeaves, decodeFinish]
@[simp] theorem decodeLeaves_txsCount : (decodeLeaves s e).txsCount = s.txsCount := by simp [decodeLeaves, decodeFinish]
@[simp] theorem decodeLeaves_rxsCount : (decodeLeaves s e).rxsCount = s.rxsCount := by simp [decodeLeaves, decodeFinish]
@[simp] theorem decodeLeaves_rxbCount : (decodeLeaves s e).rxbCount = BitVec.ofNat 32 e.out.length := by simp [decodeLeaves, decodeFinish]
@[simp] theorem decodeLeaves_rxpos : (decodeLeaves s e).rxpos = BitVec.ofNat 32 e.pos := by simp [decodeLeaves, decodeFinish]
@[simp] theorem decodeLeaves_mem : (decodeLeaves s e).mem = s.mem.storeBytes .rxb 0 e.out := by simp [decodeLeaves, decodeFinish]
@[simp] theorem decodeLeaves_host : (decodeLeaves s e).host = s.host := by simp [decodeLeaves, decodeFinish]
@[simp] theorem decodeLeaves_reply : (decodeLeaves s e).reply = s.reply := by simp [decodeLeaves, decodeFinish]
@[simp] theorem decodeLeaves_epoch : (decodeLeaves s e).epoch = s.epoch := by simp [decodeLeaves, decodeFinish]

@[simp] theorem readByte_decodeLeaves (b : ByteBuf) (i : Nat) : readByte (decodeLeaves s e) b i =
    if b = .rxb ∧ i < e.out.length then e.out[i]?.getD 0#8 else readByte s b i := by
  rw [readByte_congr (s := writeBytes .rxb 0 e.out s) (by simp) (by simp), readByte_writeBytes]
  simp

@[simp] theorem readSample_decodeLeaves (b : SampleBuf) (i : Nat) :
    readSample (decodeLeaves s e) b i = readSample s b i := by
  rw [readSample_congr (s := writeBytes .rxb 0 e.out s) (by simp) (by simp), readSample_writeBytes]

end Sys2Proof.Machine
end

