-- ==== Sys2Proof/Laws/Tone.lean ====
section
/-! SUPPORT. The small laws of the ToneUnit: crossing counts and the decision. -/

namespace Sys2Proof.Machine

@[simp] theorem crossings_nil : crossings [] = 0 := rfl

@[simp] theorem crossings_single (a : Sample) : crossings [a] = 0 := rfl

theorem crossings_cons_cons (a b : Sample) (w : List Sample) :
    crossings (a :: b :: w) = (if sign a = sign b then 0 else 1) + crossings (b :: w) := rfl

/-- A count is below the number of samples (40_tone_unit.md R85). -/
theorem crossings_lt_length (a : Sample) (w : List Sample) : crossings (a :: w) < (a :: w).length := by
  induction w generalizing a with
  | nil => simp
  | cons b w ih =>
    have := ih b
    rw [crossings_cons_cons]
    simp only [List.length_cons] at *
    split <;> omega

theorem crossings_le_length (w : List Sample) : crossings w ≤ w.length := by
  cases w with
  | nil => simp
  | cons a w => exact Nat.le_of_lt (crossings_lt_length a w)

/-- A count at a position fits the register it is written to. -/
theorem crossingsAt_fits {s : State} (hp : s.params.ok = true) (pos : Nat) :
    (BitVec.ofNat 32 (crossingsAt s pos)).toNat = crossingsAt s pos := by
  have h1 := ((params_ok_iff _).1 hp).1.1.2
  have h2 := samplesPerBit_le s
  have h3 : crossingsAt s pos ≤ s.samplesPerBit := by
    have := crossings_le_length (rxWindow s pos)
    rwa [rxWindow_length] at this
  rw [BitVec.toNat_ofNat, Nat.mod_eq_of_lt (by omega)]

/-- `SPB` fits its register. -/
theorem samplesPerBit_fits {s : State} (hp : s.params.ok = true) :
    (BitVec.ofNat 32 s.samplesPerBit).toNat = s.samplesPerBit := by
  have h1 := ((params_ok_iff _).1 hp).1.1.2
  have h2 := samplesPerBit_le s
  rw [BitVec.toNat_ofNat, Nat.mod_eq_of_lt (by omega)]

/-- What an INVALID after a check of `baud_ok` leaves in `SPB`, whichever text the instance follows (log 7). -/
theorem spbAfterInvalid_of_latch {s t : State} (hp : s.params.ok = true) (h : t.spb = (latchSpbOnInvalid s).spb) :
    SpbAfterInvalid s t where
  badRate hb := by rw [h]; simp [hb]
  afterChecks ht := by rw [h]; simp [ht]
  whenBaudOk ht hb := by rw [h, latchSpbOnInvalid_spb, if_pos ⟨ht, hb⟩, samplesPerBit_fits hp]

/-- Appending one sample adds its sign change. -/
theorem crossings_snoc (w : List Sample) (a b : Sample) :
    crossings (w ++ [a, b]) = crossings (w ++ [a]) + (if sign a = sign b then 0 else 1) := by
  induction w with
  | nil => rw [List.nil_append, crossings_cons_cons]; simp
  | cons c w ih =>
    cases w with
    | nil => simp only [List.cons_append, List.nil_append, crossings_cons_cons, crossings_single]; omega
    | cons d w =>
      simp only [List.cons_append, crossings_cons_cons] at *
      omega

/-- The count of a window given sample by sample. -/
theorem crossings_map_range (f : Nat → Sample) (n : Nat) :
    crossings ((List.range (n + 1)).map f) =
      (List.range n).countP (fun k => decide (sign (f k) ≠ sign (f (k + 1)))) := by
  induction n with
  | zero => rfl
  | succ n ih =>
    rw [List.range_succ (n := n + 1), List.range_succ (n := n), List.countP_append, ← ih, List.range_succ (n := n)]
    simp only [List.map_append, List.map_cons, List.map_nil, List.append_assoc, List.cons_append, List.nil_append,
      crossings_snoc, List.countP_cons, List.countP_nil]
    by_cases h : sign (f n) = sign (f (n + 1)) <;> simp [h]

/-- A window is a list given sample by sample. -/
theorem synth_getElem (p : Params) (bit : Bool) (n i : Nat) (h : i < (synth p bit n).length) :
    (synth p bit n)[i] = toneSample p bit i := by
  simp [synth]

end Sys2Proof.Machine
end

