-- ==== Sys2Proof/Laws/Grain.lean ====
section
/-! SUPPORT. The two machines at the grain of one turn: what each row does, and when memory stays inside the
capacities. -/

namespace Sys2Proof.Machine

/-! ### The capacities -/

theorem cells_store_within {w : Nat} {c : Cells w} {n i : Nat} {vs : List (BitVec w)} (h : Cells.within c n = true)
    (hn : vs.length = 0 ∨ i + vs.length ≤ n) : Cells.within (Cells.store c i vs) n = true := by
  simp only [Cells.within, List.all_eq_true, decide_eq_true_eq] at *
  intro e he
  rcases cells_mem_store he with he | he
  · exact h e he
  · omega

theorem memory_storeBytes_within {m : Memory} {p : Params} (h : m.within p = true) (b : ByteBuf) (i : Nat)
    (vs : List Byte) (hn : vs.length = 0 ∨ i + vs.length ≤ p.byteCapacity b) :
    (m.storeBytes b i vs).within p = true := by
  simp only [Memory.within, Bool.and_eq_true] at h
  obtain ⟨⟨⟨h1, h2⟩, h3⟩, h4⟩ := h
  cases b <;> simp [Memory.storeBytes, Memory.within, h1, h2, h3, h4] <;> exact cells_store_within ‹_› hn

theorem memory_storeSamples_within {m : Memory} {p : Params} (h : m.within p = true) (b : SampleBuf) (i : Nat)
    (vs : List Sample) (hn : vs.length = 0 ∨ i + vs.length ≤ p.sampleCapacity b) :
    (m.storeSamples b i vs).within p = true := by
  simp only [Memory.within, Bool.and_eq_true] at h
  obtain ⟨⟨⟨h1, h2⟩, h3⟩, h4⟩ := h
  cases b <;> simp [Memory.storeSamples, Memory.within, h1, h2, h3, h4] <;> exact cells_store_within ‹_› hn

/-- A state that is idle meets the invariant when its data do. -/
theorem inv_of_idle {t : State} (hp : t.params.ok = true) (hm : t.mem.wf = true) (hw : t.mem.within t.params = true)
    (hb : t.rxbCount.toNat ≤ t.params.cap) (hf : t.format &&& ~~~formatMask = 0#32) (hi : t.status.busy = false)
    (ht : t.status.trunc = true → t.status.err = .none) (hx : t.rxState = .idle) (hr : t.running = none) : Inv t where
  params := hp
  canonical := hm
  within := hw
  rxbCount := hb
  format := hf
  busyDone := fun h => by rw [hi] at h; cases h
  truncErr := ht
  idle := fun _ => ⟨hx, hr⟩
  busy := fun h => by rw [hi] at h; cases h
  rxOnly := fun h => absurd hx h
  rx := fun h => by rw [hr] at h; cases h
  tx := fun h => by rw [hr] at h; cases h

/-! ### The rows of 43_modem_stream.md R125 -/

theorem coreTurn_decode {s : State} (hb : s.status.busy = true) (hr : s.running = some .decode) :
    coreTurn s = rxStep s := by
  simp [coreTurn, tick, hb, hr]

theorem coreTurn_encode {s : State} (hb : s.status.busy = true) (hr : s.running = some .encode) :
    coreTurn s = txStep s := by
  simp [coreTurn, tick, hb, hr]

theorem rxStep_searching_cases {s : State} (h : s.rxState = .searching) :
    (s.rxsCount.toNat < s.rxpos.toNat + s.charLen ∧ rxStep s = complete s) ∨
    (s.rxpos.toNat + s.charLen ≤ s.rxsCount.toNat ∧ s.rxbCount.toNat = s.params.cap ∧
      rxStep s = complete (setTrunc true s)) ∨
    (s.rxpos.toNat + s.charLen ≤ s.rxsCount.toNat ∧ s.rxbCount.toNat ≠ s.params.cap ∧
      classifyAt s s.rxpos.toNat = true ∧ rxStep s = setRxpos (s.rxpos.toNat + 1) (countWindow s)) ∨
    (s.rxpos.toNat + s.charLen ≤ s.rxsCount.toNat ∧ s.rxbCount.toNat ≠ s.params.cap ∧
      classifyAt s s.rxpos.toNat = false ∧ rxStep s = setRxState .startConfirmed (countWindow s)) := by
  simp only [rxStep, h, rxSearch]
  by_cases h1 : s.rxpos.toNat + s.charLen > s.rxsCount.toNat
  · exact .inl ⟨h1, by rw [if_pos h1]⟩
  · rw [if_neg h1]
    by_cases h2 : s.rxbCount.toNat = s.params.cap
    · exact .inr (.inl ⟨by omega, h2, by rw [if_pos h2]⟩)
    · rw [if_neg h2]
      cases h3 : classifyAt s s.rxpos.toNat
      · exact .inr (.inr (.inr ⟨by omega, h2, rfl, rfl⟩))
      · exact .inr (.inr (.inl ⟨by omega, h2, rfl, rfl⟩))

theorem rxStep_startConfirmed {s : State} (h : s.rxState = .startConfirmed) :
    rxStep s = setRxState .data (setRxpos (s.rxpos.toNat + s.samplesPerBit)
      (setWork { s.work with shift := 0#8, kbit := 0#4 } s)) := by
  simp only [rxStep, h]; rfl

/-- The working registers after a turn in `DATA`. -/
def dataWork (s : State) : Work :=
  shiftIn (classifyAt s s.rxpos.toNat) { s.work with wi := s.samplesPerBit, xc := crossingsAt s s.rxpos.toNat }

/-- The state after a turn in `DATA` that leaves the working registers at `w` and goes on in `x`. -/
def dataTurn (x : RxState) (w : Work) (s : State) : State :=
  setRxState x (setRxpos (s.rxpos.toNat + s.samplesPerBit) (setWork w (setXcount (crossingsAt s s.rxpos.toNat) s)))

theorem rxStep_data_cases {s : State} (h : s.rxState = .data) :
    ((s.work.kbit + 1#4).toNat < s.dataBits ∧ rxStep s = dataTurn .data (dataWork s) s) ∨
    (s.dataBits ≤ (s.work.kbit + 1#4).toNat ∧ s.parityFlag = 1 ∧ rxStep s = dataTurn .parity (dataWork s) s) ∨
    (s.dataBits ≤ (s.work.kbit + 1#4).toNat ∧ s.parityFlag ≠ 1 ∧
      rxStep s = dataTurn .stop { dataWork s with jstop := 0#8 } s) := by
  have key : rxStep s = if (s.work.kbit + 1#4).toNat < s.dataBits then dataTurn .data (dataWork s) s
      else if s.parityFlag = 1 then dataTurn .parity (dataWork s) s
      else dataTurn .stop { dataWork s with jstop := 0#8 } s := by
    simp only [rxStep, h]; rfl
  rw [key]
  by_cases h1 : (s.work.kbit + 1#4).toNat < s.dataBits
  · exact .inl ⟨h1, by rw [if_pos h1]⟩
  · by_cases h2 : s.parityFlag = 1
    · exact .inr (.inl ⟨by omega, h2, by rw [if_neg h1, if_pos h2]⟩)
    · exact .inr (.inr ⟨by omega, h2, by rw [if_neg h1, if_neg h2]⟩)

theorem rxStep_parity {s : State} (h : s.rxState = .parity) :
    rxStep s = setRxState .stop (setRxpos (s.rxpos.toNat + s.samplesPerBit)
      (setWork { s.work with jstop := 0#8 } s)) := by
  simp only [rxStep, h]; rfl

/-- The state after a turn in `STOP`, before the last one emits its byte. -/
def stopTurn (x : RxState) (s : State) : State :=
  setRxState x (setRxpos (s.rxpos.toNat + s.samplesPerBit) (setWork { s.work with jstop := s.work.jstop + 1#8 } s))

theorem rxStep_stop_cases {s : State} (h : s.rxState = .stop) :
    ((s.work.jstop + 1#8).toNat < s.stopBits ∧ rxStep s = stopTurn .stop s) ∨
    (s.stopBits ≤ (s.work.jstop + 1#8).toNat ∧
      rxStep s = setRxbCount (s.rxbCount.toNat + 1) (writeBytes .rxb s.rxbCount.toNat [s.work.shift] (stopTurn .searching s))) := by
  have key : rxStep s = if (s.work.jstop + 1#8).toNat < s.stopBits then stopTurn .stop s
      else setRxbCount (s.rxbCount.toNat + 1)
        (writeBytes .rxb s.rxbCount.toNat [s.work.shift] (stopTurn .searching s)) := by
    simp only [rxStep, h]; rfl
  rw [key]
  by_cases h1 : (s.work.jstop + 1#8).toNat < s.stopBits
  · exact .inl ⟨h1, by rw [if_pos h1]⟩
  · exact .inr ⟨by omega, by rw [if_neg h1]⟩

/-! ### A running `DECODE` -/

theorem RxInv.checked {s : State} (h : RxInv s) :
    s.baudOk = true ∧ s.fmtOk = true ∧ s.rxsCount.toNat ≤ s.params.rxsCapacity := by
  have hc := h.config
  simp only [Bool.and_eq_true, rxsFits_iff] at hc
  exact ⟨hc.1.1, hc.1.2, hc.2⟩

theorem toNat_ofNat_32 {n : Nat} (h : n < 2 ^ 32) : (BitVec.ofNat 32 n).toNat = n := by
  rw [BitVec.toNat_ofNat, Nat.mod_eq_of_lt h]

/-- `KBIT` does not wrap. -/
theorem kbit_succ {s : State} (hf : s.fmtOk = true) (hk : s.work.kbit.toNat < s.dataBits) :
    (s.work.kbit + 1#4).toNat = s.work.kbit.toNat + 1 := by
  simp only [State.fmtOk, Bool.and_eq_true, decide_eq_true_eq] at hf
  rw [BitVec.toNat_add]
  simp
  omega

/-- `JSTOP` does not wrap. -/
theorem jstop_succ {s : State} (hk : s.work.jstop.toNat < s.stopBits) :
    (s.work.jstop + 1#8).toNat = s.work.jstop.toNat + 1 := by
  have hs : s.stopBits < 2 ^ 8 := BitVec.isLt _
  rw [BitVec.toNat_add]
  simp
  omega

/-- Inside a character at least one window is left. -/
theorem RxInv.windowsLeft_pos {s : State} (hr : RxInv s) (hx : s.rxState.inCharacter = true) : 1 ≤ s.windowsLeft := by
  have := frameBits_bounds hr.checked.2.1
  cases h : s.rxState <;> simp [State.windowsLeft, h, RxState.inCharacter] at hx ⊢
  · omega
  · have := hr.kbit h; omega
  · have := hr.jstop h; omega

/-- Inside a character `RXPOS` has room for one more window. -/
theorem RxInv.rxpos_step {s : State} (hr : RxInv s) (hx : s.rxState.inCharacter = true) :
    (BitVec.ofNat 32 (s.rxpos.toNat + s.samplesPerBit)).toNat = s.rxpos.toNat + s.samplesPerBit := by
  have := Nat.le_mul_of_pos_left s.samplesPerBit (hr.windowsLeft_pos hx)
  have := hr.window
  have := s.rxsCount.isLt
  exact toNat_ofNat_32 (by omega)

/-- Shifting a bit in sets bit `KBIT` and no other (43_modem_stream.md R125), where the bits from `KBIT` on are 0. -/
theorem shiftIn_getLsbD (b : Bool) (w : Work) (hx : w.shift.toNat < 2 ^ w.kbit.toNat) (hk : w.kbit.toNat < 8) (j : Nat) :
    (shiftIn b w).shift.getLsbD j = if j = w.kbit.toNat then b else w.shift.getLsbD j := by
  have hz : ∀ m, w.kbit.toNat ≤ m → w.shift.getLsbD m = false := by
    intro m hm
    rw [BitVec.getLsbD, Nat.testBit_lt_two_pow]
    exact lt_of_lt_of_le hx (Nat.pow_le_pow_right (by omega) hm)
  rw [shiftIn, BitVec.getLsbD_or, BitVec.getLsbD_shiftLeft]
  by_cases h : j = w.kbit.toNat
  · subst h
    rw [hz _ (le_refl _)]
    simp [hk]
  · rw [if_neg h]
    by_cases h2 : j < w.kbit.toNat
    · simp [h2]
    · have : j - w.kbit.toNat ≠ 0 := by omega
      simp [BitVec.getLsbD_ofBool, this]

/-- After that the bits from the new `KBIT` on are 0. -/
theorem shiftIn_lt (b : Bool) (w : Work) (hx : w.shift.toNat < 2 ^ w.kbit.toNat) (hk : w.kbit.toNat < 8) :
    (shiftIn b w).shift.toNat < 2 ^ (w.kbit.toNat + 1) := by
  apply Nat.lt_pow_two_of_testBit
  intro i hi
  have := shiftIn_getLsbD b w hx hk i
  rw [BitVec.getLsbD] at this
  rw [this, if_neg (by omega), BitVec.getLsbD, Nat.testBit_lt_two_pow]
  exact lt_of_lt_of_le hx (Nat.pow_le_pow_right (by omega) (by omega))

/-- The status of a running command (part of the invariant). -/
theorem Inv.busy_status {s : State} (h : Inv s) (hb : s.status.busy = true) : s.status = ⟨true, false, false, .none⟩ := by
  have h1 := h.busy hb
  have h2 := h.busyDone hb
  rcases hs : s.status with ⟨b, d, t, e⟩
  rw [hs] at h1 h2 hb
  simp_all

theorem Inv.busy_of_running {s : State} (h : Inv s) {i : Instr} (hr : s.running = some i) : s.status.busy = true := by
  by_contra hb
  have := (h.idle (by simpa using hb)).2
  rw [hr] at this
  cases this

theorem baudOk_congr {s t : State} (hp : t.params = s.params) (hb : t.baud = s.baud) : t.baudOk = s.baudOk := by
  rw [State.baudOk, State.baudOk, hp, hb]

theorem samplesPerBit_congr {s t : State} (hp : t.params = s.params) (hb : t.baud = s.baud) :
    t.samplesPerBit = s.samplesPerBit := by
  rw [State.samplesPerBit, State.samplesPerBit, hp, hb]

theorem fmtOk_congr {s t : State} (hf : t.format = s.format) : t.fmtOk = s.fmtOk := by
  unfold State.fmtOk State.dataBits State.stopBits State.parityCode
  rw [hf]

/-- A turn of `DECODE` that goes on keeps the invariant when the position, the counters and the output do. -/
theorem inv_of_decode_turn {s t : State} (hI : Inv s) (hrun : s.running = some .decode) (hp : t.params = s.params)
    (hf : t.format = s.format) (hb : t.baud = s.baud) (hn : t.rxsCount = s.rxsCount) (hs : t.status = s.status)
    (hr : t.running = s.running) (hm : t.mem.wf = true) (hw : t.mem.within s.params = true)
    (hc : t.rxbCount.toNat ≤ s.params.cap) (active : t.rxState ≠ .idle)
    (window : t.rxpos.toNat + t.windowsLeft * s.samplesPerBit ≤ s.rxsCount.toNat)
    (room : t.rxState.inCharacter = true → t.rxbCount.toNat < s.params.cap)
    (kbit : t.rxState = .data → t.work.kbit.toNat < s.dataBits)
    (shift : t.rxState = .data → t.work.shift.toNat < 2 ^ t.work.kbit.toNat)
    (parity : t.rxState = .parity → s.parityFlag = 1)
    (jstop : t.rxState = .stop → t.work.jstop.toNat < s.stopBits) : Inv t := by
  have hst := hI.busy_status (hI.busy_of_running hrun)
  have hrx := (hI.rx hrun).config
  refine ⟨by rw [hp]; exact hI.params, hm, by rw [hp]; exact hw, by rw [hp]; exact hc, by rw [hf]; exact hI.format,
    fun _ => by rw [hs, hst], fun _ => by rw [hs, hst], fun h => ?_, fun _ => ⟨by rw [hr, hrun]; simp, by rw [hs, hst], by rw [hs, hst]⟩,
    fun _ => by rw [hr, hrun], fun _ => ⟨?_, active, ?_, by rw [hp]; exact room, ?_, shift, ?_, ?_⟩, fun h => ?_⟩
  · rw [hs, hst] at h; simp at h
  · rwa [baudOk_congr hp hb, fmtOk_congr hf, State.rxsFits, hn, hp]
  · rwa [samplesPerBit_congr hp hb, hn]
  · rwa [State.dataBits, hf]
  · rwa [State.parityFlag, State.parityCode, hf]
  · rwa [State.stopBits, hf]
  · rw [hr, hrun] at h; cases h

variable (s : State)

@[simp] theorem countWindow_params : (countWindow s).params = s.params := rfl
@[simp] theorem countWindow_format : (countWindow s).format = s.format := rfl
@[simp] theorem countWindow_baud : (countWindow s).baud = s.baud := rfl
@[simp] theorem countWindow_status : (countWindow s).status = s.status := rfl
@[simp] theorem countWindow_arg : (countWindow s).arg = s.arg := rfl
@[simp] theorem countWindow_result : (countWindow s).result = s.result := rfl
@[simp] theorem countWindow_xcount : (countWindow s).xcount = BitVec.ofNat 32 (crossingsAt s s.rxpos.toNat) := rfl
@[simp] theorem countWindow_spb : (countWindow s).spb = s.spb := rfl
@[simp] theorem countWindow_txbCount : (countWindow s).txbCount = s.txbCount := rfl
@[simp] theorem countWindow_txsCount : (countWindow s).txsCount = s.txsCount := rfl
@[simp] theorem countWindow_rxsCount : (countWindow s).rxsCount = s.rxsCount := rfl
@[simp] theorem countWindow_rxbCount : (countWindow s).rxbCount = s.rxbCount := rfl
@[simp] theorem countWindow_rxpos : (countWindow s).rxpos = s.rxpos := rfl
@[simp] theorem countWindow_rxState : (countWindow s).rxState = s.rxState := rfl
@[simp] theorem countWindow_work : (countWindow s).work =
    { s.work with wi := s.samplesPerBit, xc := crossingsAt s s.rxpos.toNat } := rfl
@[simp] theorem countWindow_mem : (countWindow s).mem = s.mem := rfl
@[simp] theorem countWindow_running : (countWindow s).running = s.running := rfl
@[simp] theorem countWindow_host : (countWindow s).host = s.host := rfl
@[simp] theorem countWindow_reply : (countWindow s).reply = s.reply := rfl
@[simp] theorem countWindow_epoch : (countWindow s).epoch = s.epoch := rfl
@[simp] theorem countWindow_draws : (countWindow s).draws = s.draws := rfl
@[simp] theorem countWindow_samplesPerBit : (countWindow s).samplesPerBit = s.samplesPerBit := rfl
@[simp] theorem countWindow_charLen : (countWindow s).charLen = s.charLen := rfl
@[simp] theorem countWindow_baudOk : (countWindow s).baudOk = s.baudOk := rfl
@[simp] theorem countWindow_fmtOk : (countWindow s).fmtOk = s.fmtOk := rfl
@[simp] theorem countWindow_rxsFits : (countWindow s).rxsFits = s.rxsFits := rfl
@[simp] theorem readByte_countWindow (b : ByteBuf) (i : Nat) : readByte (countWindow s) b i = readByte s b i := rfl
@[simp] theorem readSample_countWindow (b : SampleBuf) (i : Nat) :
    readSample (countWindow s) b i = readSample s b i := rfl

@[simp] theorem dataTurn_params (x : RxState) (w : Work) : (dataTurn x w s).params = s.params := rfl
@[simp] theorem dataTurn_format (x : RxState) (w : Work) : (dataTurn x w s).format = s.format := rfl
@[simp] theorem dataTurn_baud (x : RxState) (w : Work) : (dataTurn x w s).baud = s.baud := rfl
@[simp] theorem dataTurn_status (x : RxState) (w : Work) : (dataTurn x w s).status = s.status := rfl
@[simp] theorem dataTurn_arg (x : RxState) (w : Work) : (dataTurn x w s).arg = s.arg := rfl
@[simp] theorem dataTurn_result (x : RxState) (w : Work) : (dataTurn x w s).result = s.result := rfl
@[simp] theorem dataTurn_spb (x : RxState) (w : Work) : (dataTurn x w s).spb = s.spb := rfl
@[simp] theorem dataTurn_txbCount (x : RxState) (w : Work) : (dataTurn x w s).txbCount = s.txbCount := rfl
@[simp] theorem dataTurn_txsCount (x : RxState) (w : Work) : (dataTurn x w s).txsCount = s.txsCount := rfl
@[simp] theorem dataTurn_rxsCount (x : RxState) (w : Work) : (dataTurn x w s).rxsCount = s.rxsCount := rfl
@[simp] theorem dataTurn_rxbCount (x : RxState) (w : Work) : (dataTurn x w s).rxbCount = s.rxbCount := rfl
@[simp] theorem dataTurn_mem (x : RxState) (w : Work) : (dataTurn x w s).mem = s.mem := rfl
@[simp] theorem dataTurn_running (x : RxState) (w : Work) : (dataTurn x w s).running = s.running := rfl
@[simp] theorem dataTurn_host (x : RxState) (w : Work) : (dataTurn x w s).host = s.host := rfl
@[simp] theorem dataTurn_reply (x : RxState) (w : Work) : (dataTurn x w s).reply = s.reply := rfl
@[simp] theorem dataTurn_epoch (x : RxState) (w : Work) : (dataTurn x w s).epoch = s.epoch := rfl
@[simp] theorem dataTurn_draws (x : RxState) (w : Work) : (dataTurn x w s).draws = s.draws := rfl
@[simp] theorem dataTurn_dataBits (x : RxState) (w : Work) : (dataTurn x w s).dataBits = s.dataBits := rfl
@[simp] theorem dataTurn_parityFlag (x : RxState) (w : Work) : (dataTurn x w s).parityFlag = s.parityFlag := rfl
@[simp] theorem dataTurn_stopBits (x : RxState) (w : Work) : (dataTurn x w s).stopBits = s.stopBits := rfl
@[simp] theorem dataTurn_frameBits (x : RxState) (w : Work) : (dataTurn x w s).frameBits = s.frameBits := rfl
@[simp] theorem dataTurn_samplesPerBit (x : RxState) (w : Work) : (dataTurn x w s).samplesPerBit = s.samplesPerBit := rfl
@[simp] theorem dataTurn_charLen (x : RxState) (w : Work) : (dataTurn x w s).charLen = s.charLen := rfl
@[simp] theorem dataTurn_baudOk (x : RxState) (w : Work) : (dataTurn x w s).baudOk = s.baudOk := rfl
@[simp] theorem dataTurn_fmtOk (x : RxState) (w : Work) : (dataTurn x w s).fmtOk = s.fmtOk := rfl
@[simp] theorem dataTurn_rxsFits (x : RxState) (w : Work) : (dataTurn x w s).rxsFits = s.rxsFits := rfl
@[simp] theorem dataTurn_rxState (x : RxState) (w : Work) : (dataTurn x w s).rxState = x := rfl
@[simp] theorem dataTurn_rxpos (x : RxState) (w : Work) :
    (dataTurn x w s).rxpos = BitVec.ofNat 32 (s.rxpos.toNat + s.samplesPerBit) := rfl
@[simp] theorem dataTurn_work (x : RxState) (w : Work) : (dataTurn x w s).work = w := rfl
@[simp] theorem dataTurn_xcount (x : RxState) (w : Work) : (dataTurn x w s).xcount = BitVec.ofNat 32 (crossingsAt s s.rxpos.toNat) := rfl
@[simp] theorem readByte_dataTurn (x : RxState) (w : Work) (b : ByteBuf) (i : Nat) :
    readByte (dataTurn x w s) b i = readByte s b i := rfl
@[simp] theorem readSample_dataTurn (x : RxState) (w : Work) (b : SampleBuf) (i : Nat) :
    readSample (dataTurn x w s) b i = readSample s b i := rfl

@[simp] theorem stopTurn_params (x : RxState) : (stopTurn x s).params = s.params := rfl
@[simp] theorem stopTurn_format (x : RxState) : (stopTurn x s).format = s.format := rfl
@[simp] theorem stopTurn_baud (x : RxState) : (stopTurn x s).baud = s.baud := rfl
@[simp] theorem stopTurn_status (x : RxState) : (stopTurn x s).status = s.status := rfl
@[simp] theorem stopTurn_arg (x : RxState) : (stopTurn x s).arg = s.arg := rfl
@[simp] theorem stopTurn_result (x : RxState) : (stopTurn x s).result = s.result := rfl
@[simp] theorem stopTurn_spb (x : RxState) : (stopTurn x s).spb = s.spb := rfl
@[simp] theorem stopTurn_txbCount (x : RxState) : (stopTurn x s).txbCount = s.txbCount := rfl
@[simp] theorem stopTurn_txsCount (x : RxState) : (stopTurn x s).txsCount = s.txsCount := rfl
@[simp] theorem stopTurn_rxsCount (x : RxState) : (stopTurn x s).rxsCount = s.rxsCount := rfl
@[simp] theorem stopTurn_rxbCount (x : RxState) : (stopTurn x s).rxbCount = s.rxbCount := rfl
@[simp] theorem stopTurn_mem (x : RxState) : (stopTurn x s).mem = s.mem := rfl
@[simp] theorem stopTurn_running (x : RxState) : (stopTurn x s).running = s.running := rfl
@[simp] theorem stopTurn_host (x : RxState) : (stopTurn x s).host = s.host := rfl
@[simp] theorem stopTurn_reply (x : RxState) : (stopTurn x s).reply = s.reply := rfl
@[simp] theorem stopTurn_epoch (x : RxState) : (stopTurn x s).epoch = s.epoch := rfl
@[simp] theorem stopTurn_draws (x : RxState) : (stopTurn x s).draws = s.draws := rfl
@[simp] theorem stopTurn_dataBits (x : RxState) : (stopTurn x s).dataBits = s.dataBits := rfl
@[simp] theorem stopTurn_parityFlag (x : RxState) : (stopTurn x s).parityFlag = s.parityFlag := rfl
@[simp] theorem stopTurn_stopBits (x : RxState) : (stopTurn x s).stopBits = s.stopBits := rfl
@[simp] theorem stopTurn_frameBits (x : RxState) : (stopTurn x s).frameBits = s.frameBits := rfl
@[simp] theorem stopTurn_samplesPerBit (x : RxState) : (stopTurn x s).samplesPerBit = s.samplesPerBit := rfl
@[simp] theorem stopTurn_charLen (x : RxState) : (stopTurn x s).charLen = s.charLen := rfl
@[simp] theorem stopTurn_baudOk (x : RxState) : (stopTurn x s).baudOk = s.baudOk := rfl
@[simp] theorem stopTurn_fmtOk (x : RxState) : (stopTurn x s).fmtOk = s.fmtOk := rfl
@[simp] theorem stopTurn_rxsFits (x : RxState) : (stopTurn x s).rxsFits = s.rxsFits := rfl
@[simp] theorem stopTurn_rxState (x : RxState) : (stopTurn x s).rxState = x := rfl
@[simp] theorem stopTurn_rxpos (x : RxState) :
    (stopTurn x s).rxpos = BitVec.ofNat 32 (s.rxpos.toNat + s.samplesPerBit) := rfl
@[simp] theorem stopTurn_work (x : RxState) :
    (stopTurn x s).work = { s.work with jstop := s.work.jstop + 1#8 } := rfl
@[simp] theorem stopTurn_xcount (x : RxState) : (stopTurn x s).xcount = s.xcount := rfl
@[simp] theorem readByte_stopTurn (x : RxState) (b : ByteBuf) (i : Nat) :
    readByte (stopTurn x s) b i = readByte s b i := rfl
@[simp] theorem readSample_stopTurn (x : RxState) (b : SampleBuf) (i : Nat) :
    readSample (stopTurn x s) b i = readSample s b i := rfl

end Sys2Proof.Machine
end

