-- ==== Sys2Proof/Laws/PerInstr.lean ====
section
/-! SUPPORT. One lemma per command about the command as syntax: its word. -/

namespace Sys2Proof.Laws

/-- The command is well formed, and its word is no reserved word: `ZERO` is 0 and `OP` is its operation code
(30_encoding.md R69, R70). -/
def Encoded.Statement (i : Instr) : Prop :=
  i.wf = true ∧ Word.isCommand (encode i) = true ∧ (encode i).extractLsb' 0 4 = opcode i ∧ (encode i).toNat < 8

theorem Encoded.nop : Encoded.Statement .nop := by unfold Encoded.Statement; decide
theorem Encoded.encode : Encoded.Statement .encode := by unfold Encoded.Statement; decide
theorem Encoded.decode : Encoded.Statement .decode := by unfold Encoded.Statement; decide
theorem Encoded.frameEnc : Encoded.Statement .frameEnc := by unfold Encoded.Statement; decide
theorem Encoded.frameDec : Encoded.Statement .frameDec := by unfold Encoded.Statement; decide
theorem Encoded.synth : Encoded.Statement .synth := by unfold Encoded.Statement; decide
theorem Encoded.classify : Encoded.Statement .classify := by unfold Encoded.Statement; decide
theorem Encoded.parity : Encoded.Statement .parity := by unfold Encoded.Statement; decide

end Sys2Proof.Laws
end

