-- ==== Sys2Proof/Tests/Slice0.lean ====
section
/-! SUPPORT. The model's own tests: each expected result is the spec's (the vector or rule is named) or worked out by
hand from the rule named; and, for each statement that has hypotheses, a witness that meets them. -/

namespace Sys2Proof.Tests

open Sys2Proof.Machine

/-! ### Helpers -/

/-- A field of the next state, none where the step stops. -/
def view {α : Type} (f : State → α) (o : Host.Outcome State Fault Refusal) : Option α :=
  match o with
  | .next s => some (f s)
  | .fault _ => none
  | .refused _ => none

/-- An instance with small buffers. -/
def tiny : Params :=
  { Params.design with cap := 2, txbCapacity := 2, txsCapacity := 8, rxsCapacity := 20 }

/-- A small idle core: one data bit, no parity, one stop bit (`L` = 6), 22050 baud (`spb` = 2). -/
def small : State := { State.afterReset tiny 0 0 with format := 0x101#32, baud := 22050#32 }

/-- `small` with nine data bits, on an instance that latches `SPB` whenever `BAUD` is legal (log 7). -/
def latching : State := { small with format := 0x109#32, params := { tiny with spbTiming := .whenBaudOk } }

/-- `small` with samples in RXS from index 0 on. -/
def hearing (vs : List Sample) : State :=
  { writeSamples .rxs 0 vs small with rxsCount := BitVec.ofNat 32 vs.length }

/-- `small` with bytes in TXB from index 0 on. -/
def sending (vs : List Byte) : State :=
  { writeBytes .txb 0 vs small with txbCount := BitVec.ofNat 32 vs.length }

/-- The samples of the character of the bit 1 at `spb` = 2: a window with no crossing, one with one, and a stop. -/
def oneBit : List Sample := [1#16, 1#16, 1#16, 65535#16, 1#16, 1#16]

/-- Six samples of silence. -/
def silence : List Sample := List.replicate 6 0#16

/-- A core at 1200 baud, 8N1 (00_scope.md, the reference configuration). -/
def reference : State := { State.reset with format := 0x108#32, baud := 1200#32 }

/-! ### Well-formedness (40_tone_unit.md R81, 00_scope.md R6, R7; 30_encoding.md R71) -/

theorem test_wf_design : Params.design.ok = true := by decide
theorem test_wf_tiny : tiny.ok = true := by decide
theorem test_ill_sample_rate_zero : { Params.design with sampleRate := 0 }.ok = false := by decide
theorem test_ill_sample_rate_wide : { Params.design with sampleRate := 2 ^ 32 }.ok = false := by decide
theorem test_ill_f_space_zero : { Params.design with fSpace := 0 }.ok = false := by decide
theorem test_ill_carriers_swapped : { Params.design with fSpace := 2400, fMark := 1200 }.ok = false := by decide
theorem test_ill_period_below_two : { Params.design with fMark := 22051 }.ok = false := by decide
theorem test_wf_period_two : { Params.design with fMark := 22050 }.ok = true := by decide
theorem test_ill_amp_pos : { Params.design with ampPos := 0#16 }.ok = false := by decide
theorem test_ill_amp_neg : { Params.design with ampNeg := 0#16 }.ok = false := by decide
theorem test_ill_cap_zero : { Params.design with cap := 0 }.ok = false := by decide
theorem test_ill_cap_wide : { Params.design with cap := 2 ^ 32 }.ok = false := by decide
theorem test_ill_txb_zero : { Params.design with txbCapacity := 0 }.ok = false := by decide
theorem test_ill_txs_zero : { Params.design with txsCapacity := 0 }.ok = false := by decide
theorem test_ill_txs_wide : { Params.design with txsCapacity := 2 ^ 32 }.ok = false := by decide
theorem test_ill_rxs_zero : { Params.design with rxsCapacity := 0 }.ok = false := by decide
theorem test_ill_rxs_wide : { Params.design with rxsCapacity := 2 ^ 32 }.ok = false := by decide
theorem test_ill_instance_is_refused :
    step { State.reset with params := { Params.design with cap := 0 } } = .refused .illFormedInstance := by
  rfl
theorem test_every_command_wf : ∀ i : Instr, i.wf = true := by intro i; cases i <;> decide
theorem test_reserved_op : Word.isCommand 0x8#32 = false := by decide
theorem test_zero_field_set : Word.isCommand 0x11#32 = false := by decide

/-! ### Decoding: the words of 30_encoding.md R70, bit by bit -/

theorem test_decode_nop : decode 0b00000000000000000000000000000000#32 = .ok .nop := by decide
theorem test_decode_encode : decode 0b00000000000000000000000000000001#32 = .ok .encode := by decide
theorem test_decode_decode : decode 0b00000000000000000000000000000010#32 = .ok .decode := by decide
theorem test_decode_frameEnc : decode 0b00000000000000000000000000000011#32 = .ok .frameEnc := by decide
theorem test_decode_frameDec : decode 0b00000000000000000000000000000100#32 = .ok .frameDec := by decide
theorem test_decode_synth : decode 0b00000000000000000000000000000101#32 = .ok .synth := by decide
theorem test_decode_classify : decode 0b00000000000000000000000000000110#32 = .ok .classify := by decide
theorem test_decode_parity : decode 0b00000000000000000000000000000111#32 = .ok .parity := by decide
theorem test_decode_reserved : decode 0xF#32 = .error .reservedOp := by decide
theorem test_decode_zero_field : decode 0x80000001#32 = .error .zeroFieldSet := by decide
theorem test_table_rows_do_not_overlap :
    opTable.Pairwise (fun a b => a.mask &&& b.mask &&& (a.pat ^^^ b.pat) ≠ 0#32) := by decide
theorem test_table_word : decodeTableWord 32 0x7 = some .parity ∧ decodeTableWord 32 0x8 = none := by decide

/-! ### The commands -/

/-- R121: after reset, `NOP` leaves STATUS at 0x02; the first step of withFetchWord runs it. -/
theorem test_nop_after_reset :
    view (fun t => t.status.toWord) (step (State.reset.withFetchWord 32 0x0)) = some 0x02#32 := by decide

/-- R30: a first `ENCODE` after reset ends with INVALID. -/
theorem test_encode_after_reset :
    view (fun t => (t.status.toWord, t.txsCount)) (step (State.reset.withFetchWord 32 0x1)) =
      some (0x12#32, 0#32) := by decide

/-- V48: a reserved word gives STATUS 0x42. -/
theorem test_reserved_word :
    view (fun t => t.status.toWord) (step (State.reset.withFetchWord 32 0x8)) = some 0x42#32 := by decide

/-- V20 and R106: the byte 0x01 at 1N1 and 3675 baud (`spb` = 12) is `+12`, `+9 -3`, `+9 -3`. -/
theorem test_encode_samples :
    view (fun t => (t.status.toWord, t.txsCount, t.spb, [0, 11, 12, 20, 21, 23, 24, 35].map (readSample t .txs)))
      (exec .encode { sending [0x01#8] with baud := 3675#32, params := { tiny with txsCapacity := 36 } }) =
      some (0x02#32, 36#32, 12#32,
        [32767#16, 32767#16, 32767#16, 32767#16, 32768#16, 32768#16, 32767#16, 32768#16]) := by decide

/-- R123: one sample too many is ALLOC, and the result is empty. -/
theorem test_encode_alloc :
    view (fun t => (t.status.toWord, t.txsCount)) (exec .encode (sending [0x01#8, 0x00#8])) =
      some (0x22#32, 0#32) := by decide

/-- R124, by hand: the window at 2 has one crossing of two samples, est 11025 Hz (V23d), bit 1. -/
theorem test_decode_byte :
    view (fun t => (t.status.toWord, t.rxbCount, readByte t .rxb 0, t.rxpos, t.xcount)) (exec .decode (hearing oneBit)) =
      some (0x02#32, 1#32, 0x01#8, 6#32, 1#32) := by decide

/-- R128 and V45: three characters of silence and a capacity of two bytes: cut off at 12. -/
theorem test_decode_truncates :
    view (fun t => (t.status.toWord, t.rxbCount, readByte t .rxb 1, t.rxpos))
      (exec .decode (hearing (silence ++ silence ++ silence))) =
      some (0x06#32, 2#32, 0x00#8, 12#32) := by decide

/-- R108, as test_encode_samples, appended after four samples. -/
theorem test_frameEnc_appends :
    view (fun t => (t.status.toWord, t.txsCount, [3, 4, 16, 24, 25].map (readSample t .txs)))
      (exec .frameEnc { writeSamples .txs 0 [7#16, 7#16, 7#16, 7#16] small with
        baud := 3675#32, arg := 0xFFFFFF01#32, txsCount := 4#32, params := { tiny with txsCapacity := 40 } }) =
      some (0x02#32, 40#32, [7#16, 32767#16, 32767#16, 32767#16, 32768#16]) := by decide

/-- V39: byte 0x80 at 7E1: the parity counts the bit that is not sent. -/
theorem test_frameEnc_parity_of_unsent_bit :
    charBits { small with format := 0x117#32 } 0x80#8 =
      [false, false, false, false, false, false, false, false, true, true] := by decide

/-- R111, by hand: as test_decode_byte. -/
theorem test_frameDec_accepts :
    view (fun t => (t.status.toWord, t.result.toWord, t.rxpos, t.xcount)) (exec .frameDec (hearing oneBit)) =
      some (0x02#32, 0x101#32, 6#32, 1#32) := by decide

/-- R111, by hand: at position 2 of eight samples the first window is a 1: rejected, no error, `RXPOS` stays. -/
theorem test_frameDec_rejects :
    view (fun t => (t.status.toWord, t.result.toWord, t.rxpos, t.xcount))
      (exec .frameDec { hearing (oneBit ++ [1#16, 1#16]) with rxpos := 2#32 }) =
      some (0x02#32, 0x000#32, 2#32, 1#32) := by decide

/-- V16e: `SYNTH` at 1200 baud with `ARG` = 1 from `TXS_COUNT` = 100. -/
theorem test_synth :
    view (fun t => (t.status.toWord, t.txsCount, t.spb,
        [100, 108, 109, 117, 118, 126, 127, 135].map (readSample t .txs)))
      (exec .synth { reference with arg := 1#32, txsCount := 100#32 }) =
      some (0x02#32, 136#32, 36#32,
        [32767#16, 32767#16, 32768#16, 32768#16, 32767#16, 32767#16, 32768#16, 32768#16]) := by decide

/-- R83: a baud rate above the sample rate is INVALID. -/
theorem test_synth_baud :
    view (fun t => (t.status.toWord, t.txsCount)) (exec .synth { reference with baud := 44101#32 }) =
      some (0x12#32, 0#32) := by decide

/-- V23: `[-1, 0, -1]` at `spb` = 3. -/
theorem test_classify :
    view (fun t => (t.status.toWord, t.result.toWord, t.xcount))
      (exec .classify { hearing [65535#16, 0#16, 65535#16] with baud := 14700#32 }) =
      some (0x02#32, 0x001#32, 2#32) := by decide

/-- V27b: `RXS_COUNT` = 36, `RXPOS` = 1 at 1200 baud is RANGE; `SPB` is written. -/
theorem test_classify_range :
    view (fun t => (t.status.toWord, t.spb, t.xcount))
      (exec .classify { reference with rxsCount := 36#32, rxpos := 1#32 }) =
      some (0x32#32, 36#32, 0#32) := by decide

/-- V30: only `ARG[7:0]` is read. -/
theorem test_parity :
    view (fun t => (t.status.toWord, t.result.toWord))
      (exec .parity { State.reset with format := 0x118#32, arg := 0xFFFFFF01#32 }) = some (0x02#32, 0x001#32) := by
  decide

/-- V31: parity None is INVALID and leaves RESULT. -/
theorem test_parity_none :
    view (fun t => (t.status.toWord, t.result.toWord))
      (exec .parity { reference with result := ⟨0x5A#8, true⟩ }) = some (0x12#32, 0x15A#32) := by decide

/-! ### The host -/

/-- R11: FORMAT keeps bits 5:0 and 15:8. -/
theorem test_write_format :
    view (fun t => t.format) (step { State.reset with host := [.write 0x08 4 0xFFFFFFFF#32] }) =
      some 0x0000FF3F#32 := by decide

/-- R29: an unaligned write does nothing, and an offset past the map reads 0. -/
theorem test_unmapped :
    view (fun t => t.baud) (step { State.reset with host := [.write 0x0E 4 1200#32] }) = some 0#32 ∧
    view (fun t => t.reply) (step { reference with host := [.read 0x48 4] }) = some (.word 0#32) := by decide

/-- R72: `CFG 8N1, 1200` writes 0x00000108 and 1200 (the words of 30_encoding.md). -/
theorem test_cfg : scriptCfg 8#4 none 1#8 1200#32 = [.write 0x08 4 0x00000108#32, .write 0x0C 4 1200#32] := by decide

/-! ### Witnesses: for each statement with hypotheses, states that meet those of each of its clauses -/

/-- `small` while it runs a command that the host has launched. -/
def busy (i : Instr) (acts : List HostAct) : State :=
  { small with status := ⟨true, false, false, .none⟩, running := some i, host := acts }

/-- A `DECODE` of six samples that has found its start bit and is about to read the data window. -/
def midDecode : State :=
  { hearing oneBit with
    status := ⟨true, false, false, .none⟩
    running := some .decode
    rxState := .data
    rxpos := 2#32
    work := ⟨0#8, 0#4, 0#8, 0#32, 0, 0, 0⟩ }

theorem witness_ReservedWordsAreRejected :
    Word.isCommand 0x8#32 = false ∧ Word.isCommand 0xF#32 = false ∧ Word.isCommand 0x10#32 = false ∧
      Word.isCommand 0xFFFFFFFF#32 = false := by decide

theorem witness_StepRunsTheDecodedCommand :
    small.params.ok = true ∧ small.status.busy = false ∧ decode 0x0#32 = .ok .nop ∧ decode 0x7#32 = .ok .parity ∧
      { small with host := [.write 0 4 0x7#32, .pause] }.host = .write 0 4 0x7#32 :: [.pause] := by decide

theorem witness_ReservedWordEndsWithIllcmd :
    small.params.ok = true ∧ small.status.busy = false ∧ Word.isCommand 0x8#32 = false ∧
      { small with host := [.write 0 4 0x8#32] }.host = .write 0 4 0x8#32 :: [] := by decide

theorem witness_ResetAbandonsTheRunningCommand :
    (busy .decode [.reset]).params.ok = true ∧ (busy .decode [.reset]).host = .reset :: [] := by decide

theorem witness_BusyCoreIgnoresRegisterWrites :
    (busy .encode []).params.ok = true ∧ (busy .encode []).status.busy = true ∧
      (busy .encode [.write 0x08 4 0x108#32]).host = .write 0x08 4 0x108#32 :: [] ∧
      (busy .encode [.launch 0x1#32]).host = .launch 0x1#32 :: [] := by decide

theorem witness_BusReadReturnsTheRegister :
    small.params.ok = true ∧ regAt 0x44 = some .paramCap ∧ (0x44 = Reg.offset .paramCap) ∧ 0x48 ≤ 0x48 ∧ 0x0E % 4 ≠ 0 ∧
      regAt 0x0E = none ∧ { small with host := [.read 0x44 4] }.host = .read 0x44 4 :: [] ∧
      { small with host := [.read 0x44 2] }.host = .read 0x44 2 :: [] := by decide

theorem witness_BusWriteStoresAsTheMapSays :
    small.params.ok = true ∧ small.status.busy = false ∧ regAt 0x48 = none ∧ (0x08 = Reg.offset .format) ∧
      Reg.format ≠ .cmd ∧ (0x30 = Reg.offset .rxpos) ∧ Reg.rxpos ≠ .cmd ∧ (0x44 = Reg.offset .paramCap) ∧
      { small with host := [.write 0x08 4 0x108#32] }.host = .write 0x08 4 0x108#32 :: [] ∧
      { small with host := [.write 0x08 2 0x108#32] }.host = .write 0x08 2 0x108#32 :: [] := by decide

/-- The last element of TXB and of TXS. -/
theorem witness_BufferElementsReadAsWritten :
    small.params.ok = true ∧ small.status.busy = false ∧ 1 + [0x41#8].length ≤ small.params.byteCapacity .txb ∧
      7 + [1#16].length ≤ small.params.sampleCapacity .txs ∧
      { small with host := [.loadBytes .txb 1 [0x41#8]] }.host = .loadBytes .txb 1 [0x41#8] :: [] ∧
      { small with host := [.loadSamples .txs 7 [1#16]] }.host = .loadSamples .txs 7 [1#16] :: [] := by decide

/-- A busy core; and for each move the first element past the capacity, for a copy at its source and at its
destination. -/
theorem witness_BufferMovesNeedOwnershipAndAnElement :
    (busy .decode [.loopback]).params.ok = true ∧ (busy .decode [.loopback]).status.busy = true ∧
      (busy .decode [.loopback]).host = .loopback :: [] ∧ small.status.busy = false ∧
      small.params.byteCapacity .rxb ≤ 2 + 0 ∧
      { small with host := [.readBytes .rxb 2 1] }.host = .readBytes .rxb 2 1 :: [] ∧
      small.params.sampleCapacity .rxs ≤ 0 + 20 ∧
      { small with host := [.readSamples .rxs 0 21] }.host = .readSamples .rxs 0 (20 + 1) :: [] ∧
      small.params.byteCapacity .txb ≤ 2 + ([] : List Byte).length ∧
      { small with host := [.loadBytes .txb 2 [0x41#8]] }.host = .loadBytes .txb 2 [0x41#8] :: [] ∧
      small.params.sampleCapacity .txs ≤ 7 + [2#16].length ∧
      { small with host := [.loadSamples .txs 7 [1#16, 2#16]] }.host = .loadSamples .txs 7 [1#16, 2#16] :: [] ∧
      small.params.sampleCapacity .txs ≤ 7 + 1 ∧ small.params.sampleCapacity .rxs ≤ 19 + 1 ∧ 18 + 1 < small.params.sampleCapacity .rxs ∧
      { small with host := [.moveSamples .rxs 18 .txs 7 2] }.host = .moveSamples .rxs 18 .txs 7 (1 + 1) :: [] ∧
      small.params.txsCapacity < { small with txsCount := 9#32 }.txsCount.toNat ∧
      (let s := { small with txsCount := 8#32, params := { tiny with rxsCapacity := 7 } }
       s.params.ok = true ∧ s.txsCount.toNat ≤ s.params.txsCapacity ∧ s.params.rxsCapacity < s.txsCount.toNat) := by
  decide

theorem witness_WaitGivesTheFinalStatus :
    small.params.ok = true ∧ small.status.busy = false ∧
      { small with host := scriptRun .parity }.host = .write 0 4 (encode .parity) :: .waitDone :: [] := by decide

theorem witness_ErrorCodeOfEachCommandWord : small.status.busy = false := by decide

/-- Each of the four codes: INVALID, ALLOC, RANGE, ILLCMD. -/
theorem witness_ErrorLeavesEverythingElse :
    small.params.ok = true ∧ small.status.busy = false ∧ (sending [0x01#8, 0x00#8]).params.ok = true ∧
      (∃ t, writeCmd 0x7#32 small = .next t ∧ t.status.err = .invalid) ∧
      (∃ t, writeCmd 0x1#32 (sending [0x01#8, 0x00#8]) = .next t ∧ t.status.err = .alloc) ∧
      (∃ t, writeCmd 0x6#32 small = .next t ∧ t.status.err = .range) ∧
      (∃ t, writeCmd 0x8#32 small = .next t ∧ t.status.err = .illCmd) := by
  refine ⟨by decide, by decide, by decide, ⟨_, rfl, by decide⟩, ⟨_, rfl, by decide⟩, ⟨_, rfl, by decide⟩,
    ⟨_, rfl, by decide⟩⟩

/-- Two states that agree on the input of both directions and differ in an element outside it. -/
theorem witness_EachDirectionReadsOnlyItsOwnInput :
    let s := hearing oneBit
    let t := writeSamples .rxs 6 [5#16] s
    t ≠ s ∧ t.params = s.params ∧ t.format = s.format ∧ t.baud = s.baud ∧ t.txbCount = s.txbCount ∧
      t.rxsCount = s.rxsCount ∧ (∀ a, a < s.txbCount.toNat → readByte t .txb a = readByte s .txb a) ∧
      (∀ a, a < s.rxsCount.toNat → readSample t .rxs a = readSample s .rxs a) := by
  refine ⟨?_, by decide, by decide, by decide, by decide, by decide, by decide, by decide⟩
  intro h
  exact absurd (congrArg (fun x => Cells.get? (x.mem.samples .rxs) 6) h) (by decide)

theorem witness_ParityCommand :
    { small with format := 0x110#32 }.parityCode = 1#2 ∧ { small with format := 0x120#32 }.parityCode = 2#2 ∧
      small.parityCode = 0#2 ∧ { small with format := 0x130#32 }.parityCode = 3#2 := by decide

/-- A window shorter than a half cycle, and an index of a window. -/
theorem witness_SynthesizedWindow :
    8 < halfOf tiny (carrierOf tiny true) ∧ 17 < halfOf tiny (carrierOf tiny false) ∧
      35 < (synth tiny true 36).length := by decide

/-- Room for exactly one window, for one sample less, and a baud rate past the sample rate. -/
theorem witness_SynthCommand :
    small.params.ok = true ∧ small.baudOk = true ∧
      { small with txsCount := 6#32 }.txsCount.toNat + small.samplesPerBit ≤ small.params.txsCapacity ∧
      { small with txsCount := 7#32 }.txsCount.toNat + small.samplesPerBit > small.params.txsCapacity ∧
      { small with baud := 44101#32 }.baudOk = false := by decide

theorem witness_CrossingsCountSignChanges :
    [0#16] ≠ ([] : List Sample) ∧ crossings [65535#16] < [65535#16].length ∧
      (writeSamples .rxs 6 [5#16] (hearing oneBit)).samplesPerBit = (hearing oneBit).samplesPerBit ∧
      ∀ k, k < (hearing oneBit).samplesPerBit →
        readSample (writeSamples .rxs 6 [5#16] (hearing oneBit)) .rxs (4 + k) = readSample (hearing oneBit) .rxs (4 + k) := by
  decide

theorem witness_ClassifyPicksTheNearerTone :
    oneBit ≠ [] ∧ Params.design.estArith = .exact ∧ { Params.design with estArith := .floor }.estArith = .floor := by
  decide

theorem witness_DesignRates : DesignRates tiny ∧ tiny.fSpace < tiny.fMark ∧ tiny.ok = true ∧ (1 : Nat) ≤ 1 :=
  ⟨⟨rfl, rfl, rfl, rfl⟩, by decide, by decide, by decide⟩

theorem witness_ConstantSignClassifiesAsZero :
    tiny.ok = true ∧ (∀ x ∈ silence, sign x = true) ∧ (∀ x ∈ [65535#16, 65531#16], sign x = false) := by
  refine ⟨by decide, fun x hx => ?_, fun x hx => ?_⟩
  · rw [List.eq_of_mem_replicate hx]; decide
  · simp only [List.mem_cons, List.not_mem_nil, or_false] at hx
    rcases hx with rfl | rfl <;> decide

/-- The lowest and the highest baud rate of each range. -/
theorem witness_DeafBaudRates :
    DesignRates reference.params ∧ reference.params.ok = true ∧
      ∀ b ∈ [1576#32, 1764#32, 2322#32, 3392#32, 4411#32, 44100#32], { reference with baud := b }.baudOk = true := by
  refine ⟨⟨rfl, rfl, rfl, rfl⟩, by decide, fun b hb => ?_⟩
  simp only [List.mem_cons, List.not_mem_nil, or_false] at hb
  rcases hb with rfl | rfl | rfl | rfl | rfl | rfl <;> decide

/-- A window that ends with the valid part, one that does not fit, a length past the capacity, and a bad rate. -/
theorem witness_ClassifyCommand :
    (hearing oneBit).params.ok = true ∧ (hearing oneBit).baudOk = true ∧
      (hearing oneBit).rxsCount.toNat ≤ (hearing oneBit).params.rxsCapacity ∧
      4 + (hearing oneBit).samplesPerBit ≤ (hearing oneBit).rxsCount.toNat ∧
      5 + (hearing oneBit).samplesPerBit > (hearing oneBit).rxsCount.toNat ∧
      { small with rxsCount := 21#32 }.rxsCount.toNat > small.params.rxsCapacity ∧
      { small with baud := 0xFFFFFFFF#32 }.baudOk = false := by decide

/-- Both ends of each range of the checks. -/
theorem witness_ConfigurationChecks :
    { small with baud := 1#32 }.baudOk = true ∧ { small with baud := 44100#32 }.baudOk = true ∧
      { small with baud := 0#32 }.baudOk = false ∧ { small with format := 0xFF28#32 }.fmtOk = true ∧
      { small with format := 0x109#32 }.fmtOk = false ∧ { small with format := 0x008#32 }.fmtOk = false := by decide

/-- Formats with each parity mode; the first and last data window and the first and last stop window. -/
theorem witness_CharacterWindows :
    { small with format := 0x218#32 }.fmtOk = true ∧ { small with format := 0x218#32 }.parityCode = 1#2 ∧
      { small with format := 0x228#32 }.fmtOk = true ∧ { small with format := 0x228#32 }.parityCode = 2#2 ∧
      8 ≤ { small with format := 0x218#32 }.dataBits ∧
      { small with format := 0x218#32 }.dataBits + { small with format := 0x218#32 }.parityFlag + 1 ≤ 10 ∧
      11 < { small with format := 0x218#32 }.frameBits := by decide

theorem witness_TransmittedSample :
    small.baudOk = true ∧ small.fmtOk = true ∧ 11 < [0x01#8, 0x00#8].length * small.charLen := by decide

/-- Room for exactly one character, for one sample less, a reserved format. -/
theorem witness_FrameEncCommand :
    small.params.ok = true ∧ small.baudOk = true ∧ small.fmtOk = true ∧
      { small with txsCount := 2#32 }.txsCount.toNat + small.charLen ≤ small.params.txsCapacity ∧
      { small with txsCount := 3#32 }.txsCount.toNat + small.charLen > small.params.txsCapacity ∧
      { small with format := 0x131#32 }.fmtOk = false := by decide

/-- An accepted character that ends with the valid part, a rejected one, and one that does not fit. -/
theorem witness_FrameDecCommand :
    let s := hearing (oneBit ++ [1#16, 1#16])
    s.params.ok = true ∧ s.baudOk = true ∧ s.fmtOk = true ∧ s.rxsCount.toNat ≤ s.params.rxsCapacity ∧
      0 + s.charLen ≤ s.rxsCount.toNat ∧ classifyAt s 0 = false ∧ 2 + s.charLen ≤ s.rxsCount.toNat ∧
      classifyAt s 2 = true ∧ 3 + s.charLen > s.rxsCount.toNat ∧
      { s with rxsCount := 21#32 }.rxsCount.toNat > s.params.rxsCapacity := by decide

theorem witness_EncodeCommand :
    let s := { sending [0x01#8] with params := { tiny with txsCapacity := 6 } }
    s.params.ok = true ∧ s.baudOk = true ∧ s.fmtOk = true ∧ s.txbCount.toNat ≠ 0 ∧
      s.txbCount.toNat ≤ s.params.txbCapacity ∧
      s.txbCount.toNat * s.frameBits * s.samplesPerBit ≤ s.params.txsCapacity ∧
      (let t := { s with params := { tiny with txsCapacity := 5 } }
       t.params.ok = true ∧ t.txbCount.toNat * t.frameBits * t.samplesPerBit > t.params.txsCapacity) ∧
      { s with txbCount := 3#32 }.txbCount.toNat > s.params.txbCapacity ∧ small.txbCount.toNat = 0 := by decide

/-- Exhaustion, a full output, a rejected and an accepted candidate. -/
theorem witness_DecodeLoopFollowsTheRule :
    let s := hearing (oneBit ++ [1#16, 1#16])
    1 ≤ s.charLen ∧ 3 ≤ s.rxsCount.toNat ∧ s.rxsCount.toNat + 1 ≤ 0 + 9 ∧ 3 + s.charLen > s.rxsCount.toNat ∧
      2 + s.charLen ≤ s.rxsCount.toNat ∧ [0x00#8, 0x00#8].length = s.params.cap ∧ classifyAt s 2 = true ∧
      classifyAt s 0 = false := by decide

theorem witness_DecodeCommand :
    (hearing oneBit).params.ok = true ∧ (hearing oneBit).baudOk = true ∧ (hearing oneBit).fmtOk = true ∧
      (hearing oneBit).rxsCount.toNat ≤ (hearing oneBit).params.rxsCapacity ∧
      (hearing [1#16, 1#16, 1#16, 1#16, 1#16]).rxsCount.toNat < small.charLen ∧
      { small with rxsCount := 21#32 }.rxsCount.toNat > small.params.rxsCapacity ∧
      { small with format := 0x100#32 }.fmtOk = false := by decide

theorem witness_DecodeBoundsAndTruncation :
    (∃ t, exec .decode (hearing oneBit) = .next t ∧ t.status.err = .none ∧ t.status.trunc = false) ∧
      (∃ t, exec .decode (hearing (silence ++ silence ++ silence)) = .next t ∧ t.status.err = .none ∧
        t.status.trunc = true) :=
  ⟨⟨command decodeBody (hearing oneBit), rfl, by decide, by decide⟩,
    ⟨command decodeBody (hearing (silence ++ silence ++ silence)), rfl, by decide, by decide⟩⟩

theorem witness_SilenceDecodesToZeroBytes :
    let s := hearing (silence ++ silence)
    s.params.ok = true ∧ s.baudOk = true ∧ s.fmtOk = true ∧ s.rxsCount.toNat ≤ s.params.rxsCapacity ∧
      ∀ a, a < s.rxsCount.toNat → sign (readSample s .rxs a) = true := by decide

/-- A length the core hears, and one it does not. -/
theorem witness_LoopBackRoundTrip :
    let s := sending [0x01#8]
    let t := { sending [0x01#8, 0x00#8] with baud := 3675#32, params := { tiny with txsCapacity := 72, rxsCapacity := 72 } }
    (DesignRates s.params ∧ DesignRates t.params) ∧
      (s.params.ok = true ∧ s.baudOk = true ∧ s.fmtOk = true ∧ s.txbCount.toNat ≠ 0 ∧
        s.txbCount.toNat ≤ s.params.txbCapacity ∧ s.txbCount.toNat * s.charLen ≤ s.params.txsCapacity ∧
        s.txbCount.toNat * s.charLen ≤ s.params.rxsCapacity ∧ deafLength s.samplesPerBit = true) ∧
      (t.params.ok = true ∧ t.baudOk = true ∧ t.fmtOk = true ∧ t.txbCount.toNat ≠ 0 ∧
        t.txbCount.toNat ≤ t.params.txbCapacity ∧ t.txbCount.toNat * t.charLen ≤ t.params.txsCapacity ∧
        t.txbCount.toNat * t.charLen ≤ t.params.rxsCapacity ∧ deafLength t.samplesPerBit = false) :=
  ⟨⟨⟨rfl, rfl, rfl, rfl⟩, ⟨rfl, rfl, rfl, rfl⟩⟩, by decide, by decide⟩

/-- For DecodeMachineAgreesWithLoop, EncodeLoopsAgreeWithStream and UnitCommandsActInOneTurn. -/
theorem witness_launched :
    small.params.ok = true ∧ small.status.busy = false ∧ Instr.parity ≠ .encode ∧ Instr.parity ≠ .decode ∧
      { small with host := [.launch (encode .decode)] }.host = [.launch (encode .decode)] ∧
      { small with host := [.launch (encode .encode)] }.host = [.launch (encode .encode)] ∧
      { small with host := [.launch (encode .parity)] }.host = [.launch (encode .parity)] := by decide

theorem midDecode_inv : Inv midDecode where
  params := by decide
  canonical := by decide
  within := by decide
  rxbCount := by decide
  format := by decide
  busyDone := by decide
  truncErr := by decide
  idle := by decide
  busy := by decide
  rxOnly := by decide
  rx := fun _ => ⟨by decide, by decide, by decide, by decide, by decide, by decide, by decide, by decide⟩
  tx := fun h => absurd h (by decide)

/-- The rows of R125 other than `DATA`: the same character before, after and past its data window; the end of the
samples; a full output. -/
theorem rxRows_inv :
    Inv { midDecode with rxState := .searching, rxpos := 0#32 } ∧ Inv { midDecode with rxState := .startConfirmed, rxpos := 0#32 } ∧
      Inv { midDecode with rxState := .stop, rxpos := 4#32 } ∧
      Inv { midDecode with rxState := .searching, rxpos := 6#32, rxbCount := 1#32 } ∧
      Inv { midDecode with rxState := .searching, rxpos := 0#32, rxbCount := 2#32 } := by
  refine ⟨?_, ?_, ?_, ?_, ?_⟩ <;>
    exact
      ⟨by decide, by decide, by decide, by decide, by decide, by decide, by decide, by decide, by decide, by decide,
        fun _ => ⟨by decide, by decide, by decide, by decide, by decide, by decide, by decide, by decide⟩,
        fun h => absurd h (by decide)⟩

/-- The row `PARITY`, of a format with a parity window. -/
theorem parityRow_inv : Inv { midDecode with rxState := .parity, format := 0x111#32, rxsCount := 8#32, rxpos := 4#32 } :=
  ⟨by decide, by decide, by decide, by decide, by decide, by decide, by decide, by decide, by decide, by decide,
    fun _ => ⟨by decide, by decide, by decide, by decide, by decide, by decide, by decide, by decide⟩,
    fun h => absurd h (by decide)⟩

theorem witness_DecodeMachineFollowsTheTable :
    Inv midDecode ∧ midDecode.running = some .decode ∧ midDecode.host = [] ∧ midDecode.rxState = .data ∧
      classifyAt midDecode 0 = false ∧ classifyAt midDecode 2 = true :=
  ⟨midDecode_inv, by decide, by decide, by decide, by decide, by decide⟩

/-- The rows `DATA` and `SEARCHING` at a window, a full output, the end of the samples; the row `STOP`. -/
theorem witness_DecodeMachineRecordsEachCount :
    (Inv midDecode ∧ midDecode.running = some .decode ∧ midDecode.host = [] ∧ midDecode.rxState = .data) ∧
      (Inv { midDecode with rxState := .searching, rxpos := 0#32 } ∧
        0 + midDecode.charLen ≤ midDecode.rxsCount.toNat ∧ midDecode.rxbCount.toNat ≠ midDecode.params.cap) ∧
      (Inv { midDecode with rxState := .searching, rxpos := 0#32, rxbCount := 2#32 } ∧
        { midDecode with rxbCount := 2#32 }.rxbCount.toNat = midDecode.params.cap) ∧
      (Inv { midDecode with rxState := .searching, rxpos := 6#32, rxbCount := 1#32 } ∧
        6 + midDecode.charLen > midDecode.rxsCount.toNat) ∧
      Inv { midDecode with rxState := .stop, rxpos := 4#32 } :=
  ⟨⟨midDecode_inv, by decide, by decide, by decide⟩, ⟨rxRows_inv.1, by decide, by decide⟩,
    ⟨rxRows_inv.2.2.2.2, by decide⟩, ⟨rxRows_inv.2.2.2.1, by decide⟩, rxRows_inv.2.2.1⟩

theorem witness_BusyCoreAlwaysFinishes : Inv midDecode ∧ midDecode.status.busy = true ∧ midDecode.host = [] :=
  ⟨midDecode_inv, by decide, by decide⟩

theorem witness_EveryStepKeepsTheInvariant : Inv midDecode ∧ ∃ t, step midDecode = .next t :=
  ⟨midDecode_inv, _, rfl⟩

/-- The highest legal code of each word, and the first bit above its fields. -/
theorem witness_StatusWordsAreLaidOutAsTheRulesSay :
    Status.toWord ⟨false, true, false, .illCmd⟩ = 0x42#32 ∧ ResultReg.toWord ⟨0xFF#8, true⟩ = 0x1FF#32 ∧
      RxState.toWord .stop = 5#32 ∧ 7 ≤ 7 ∧ 9 ≤ 9 := by decide

/-- The last register of the map, which reads `CAP`. -/
theorem witness_RegisterMapInNumbers :
    small.params.ok = true ∧ busRead small 0x44 4 ≠ 0#32 ∧ regAt 0x44 = some .paramCap := by decide

theorem witness_OperandFieldsStandWhereTheRulesSay :
    { small with format := 0x108#32 }.format = 0x108#32 ∧ { small with format := 0x217#32 }.format = 0x217#32 ∧
      { small with format := 0x227#32 }.format = 0x227#32 ∧ { small with format := 0x128#32 }.format = 0x128#32 := by
  decide

/-- The last elements of a buffer, a copy up to the end of its destination, and a loop-back that fills RXS. -/
theorem witness_BufferReadsAndCopies :
    small.params.ok = true ∧ small.status.busy = false ∧ 1 + 1 ≤ small.params.byteCapacity .rxb ∧
      { small with host := [.readBytes .rxb 1 1] }.host = .readBytes .rxb 1 1 :: [] ∧
      18 + 2 ≤ small.params.sampleCapacity .rxs ∧ 6 + 2 ≤ small.params.sampleCapacity .txs ∧
      { small with host := [.readSamples .rxs 18 2] }.host = .readSamples .rxs 18 2 :: [] ∧
      { small with host := [.moveSamples .rxs 18 .txs 6 2] }.host = .moveSamples .rxs 18 .txs 6 2 :: [] ∧
      (let s := { small with txsCount := 8#32, params := { tiny with rxsCapacity := 8 }, host := [.loopback] }
       s.params.ok = true ∧ s.host = .loopback :: [] ∧ s.txsCount.toNat ≤ s.params.txsCapacity ∧
         s.txsCount.toNat ≤ s.params.rxsCapacity) := by decide

/-- Both instances, and a rate that is not legal. -/
theorem witness_SpbIsWrittenWheneverTheRateIsLegal :
    latching.params.ok = true ∧ latching.params.spbTiming = .whenBaudOk ∧ latching.baudOk = true ∧
      Instr.encode ≠ .nop ∧ Instr.encode ≠ .parity ∧ { small with baud := 0#32 }.baudOk = false := by decide

/-- For each SpbAfterInvalid: an INVALID with a legal `BAUD` (nine data bits) on an instance of each kind. R18: `SPB` is
written; R149: it is not. -/
theorem test_spb_after_invalid :
    view (fun t => (t.status.toWord, t.spb)) (exec .encode latching) = some (0x12#32, 2#32) ∧
    view (fun t => (t.status.toWord, t.spb)) (exec .encode { latching with params := tiny }) =
      some (0x12#32, 0#32) := by decide

end Sys2Proof.Tests
end

section
/-! PROOFS. The registers as the host sees them: the layouts of their words, the bus, the values after reset, and what
the commands leave in `XCOUNT`, `XC`, `WI` and `SPB` (10_state.md). -/

namespace Sys2Proof.Machine

/-! ### The map of the registers -/

theorem Reg.offset_bounds (r : Reg) : r.offset % 4 = 0 ∧ r.offset ≤ 0x44 := by cases r <;> decide

theorem regAt_eq_none {o : Nat} (h : 0x48 ≤ o ∨ o % 4 ≠ 0) : regAt o = none := by
  cases hr : regAt o with
  | none => rfl
  | some r =>
    have ho := regAt_eq_some hr
    have hb := r.offset_bounds
    omega

/-- No register's value depends on the moves that the host has still to make. -/
theorem readReg_host (s : State) (acts : List HostAct) (r : Reg) :
    readReg { s with host := acts } r = readReg s r := by
  cases r <;> rfl

/-! ### Bus reads -/

theorem busRead_reg (s : State) (r : Reg) : busRead s r.offset 4 = readReg s r := by
  simp [busRead, regAt_offset]

theorem busRead_unmapped (s : State) {o : Nat} (size : Nat) (h : regAt o = none) : busRead s o size = 0#32 := by
  simp [busRead, h]

theorem busRead_subword (s : State) (o : Nat) {size : Nat} (h : size ≠ 4) : busRead s o size = 0#32 := by
  simp [busRead, h]

/-! ### Bus writes -/

theorem busWrite_ignored {o size : Nat} (v : Word) (s : State) (h : size ≠ 4 ∨ regAt o = none) :
    busWrite o size v s = .next s := by
  rcases h with h | h <;> simp [busWrite, h]

theorem busWrite_busy (o size : Nat) (v : Word) {s : State} (hb : s.status.busy = true) :
    busWrite o size v s = .next s := by
  simp only [busWrite, writeCmd, hb, if_true]
  split
  · split <;> rfl
  · rfl

theorem busWrite_reg {r : Reg} (hr : r ≠ .cmd) (v : Word) {s : State} (hb : s.status.busy = false) :
    busWrite r.offset 4 v s = .next (writeReg r v s) := by
  simp only [busWrite, regAt_offset, if_true, hb, Bool.false_eq_true, if_false]

theorem writeReg_mem (r : Reg) (v : Word) (s : State) : (writeReg r v s).mem = s.mem := by cases r <;> rfl

theorem writeReg_epoch (r : Reg) (v : Word) (s : State) : (writeReg r v s).epoch = s.epoch := by cases r <;> rfl

theorem readReg_writeReg_of_ne {q r : Reg} (h : q ≠ r) (v : Word) (s : State) :
    readReg (writeReg r v s) q = readReg s q := by
  cases r with
  | cmd | status | result | xcount | spb | rxbCount | rxState => rfl
  | paramSampleRate | paramFSpace | paramFMark | paramCap => rfl
  | format | baud | arg | txbCount | txsCount | rxsCount | rxpos =>
    cases q <;> try rfl
    exact absurd rfl h

theorem readReg_writeReg_plain {r : Reg} (h : r ∈ [.baud, .arg, .txbCount, .txsCount, .rxsCount, .rxpos]) (v : Word)
    (s : State) : readReg (writeReg r v s) r = v := by
  fin_cases h <;> rfl

theorem writeReg_readOnly {r : Reg} (h : r ∈ [.status, .result, .xcount, .spb, .rxbCount, .rxState, .paramSampleRate,
    .paramFSpace, .paramFMark, .paramCap]) (v : Word) (s : State) : writeReg r v s = s := by
  fin_cases h <;> rfl

theorem formatMask_getLsbD : ∀ k < 32,
    formatMask.getLsbD k = (decide (k < 6) || (decide (8 ≤ k) && decide (k < 16))) := by decide

theorem writeReg_format_getLsbD (v : Word) (s : State) {k : Nat} (h : k < 32) :
    (writeReg .format v s).format.getLsbD k =
      (v.getLsbD k && (decide (k < 6) || (decide (8 ≤ k) && decide (k < 16)))) := by
  rw [← formatMask_getLsbD k h]
  exact BitVec.getLsbD_and

/-- Settles O9: the map has its registers at their offsets and no others, and a read changes only the reply. -/
theorem busReadReturnsTheRegister : Obligations.BusReadReturnsTheRegister := by
  refine ⟨regAt_offset, fun o h => regAt_eq_none (.inl h), fun o h => regAt_eq_none (.inr h), ?_, fun _ => rfl⟩
  intro s rest o size hp hh
  refine ⟨busRead { s with host := rest } o size, step_host hp hh, ?_, busRead_subword _ o, busRead_unmapped _ size⟩
  rintro r rfl rfl
  rw [busRead_reg, readReg_host]

/-- Settles O10: a write that reaches a register is `writeReg`, register by register; any other only takes
the move off. -/
theorem busWriteStoresAsTheMapSays : Obligations.BusWriteStoresAsTheMapSays := by
  intro s rest o size v hp hb hh
  have hstep : step s = busWrite o size v { s with host := rest } := step_host hp hh
  refine ⟨fun h => hstep.trans (busWrite_ignored v _ h), ?_⟩
  rintro r rfl rfl hr
  refine ⟨writeReg r v { s with host := rest }, hstep.trans (busWrite_reg hr v hb), writeReg_mem .., writeReg_epoch ..,
    fun q hq => ?_, ?_, fun h => readReg_writeReg_plain h .., fun h => writeReg_readOnly h ..⟩
  · rw [readReg_writeReg_of_ne hq, readReg_host]
  · rintro rfl k hk
    exact writeReg_format_getLsbD v _ hk

/-- Settles O8: on a busy core the register write and the launch only take the host's move off. -/
theorem busyCoreIgnoresRegisterWrites : Obligations.BusyCoreIgnoresRegisterWrites := by
  intro s rest hp hb
  refine ⟨fun o size v hh => ?_, fun w hh => ?_⟩
  · rw [step_host hp hh]
    exact busWrite_busy o size v hb
  · rw [step_host hp hh]
    simp [hostMove, launch, hb]

/-! ### Commands -/

theorem decode_encode (i : Instr) : decode (encode i) = .ok i := by cases i <;> rfl

theorem writeCmd_idle {w : Word} {i : Instr} {s : State} (hb : s.status.busy = false) (hd : decode w = .ok i) :
    writeCmd w s = exec i s := by
  simp [writeCmd, hb, hd]

theorem step_writeCmd {s : State} {rest : List HostAct} {w : Word} {i : Instr} (hp : s.params.ok = true)
    (hb : s.status.busy = false) (hh : s.host = .write 0 4 w :: rest) (hd : decode w = .ok i) :
    step s = exec i { s with host := rest } := by
  rw [step_host hp hh]
  exact writeCmd_idle hb hd

theorem withFetchWord_encode (s : State) (i : Instr) :
    s.withFetchWord 32 (encode i).toNat = queueCommand (encode i) s := by
  rw [State.withFetchWord, Nat.mod_eq_of_lt (encode i).isLt, BitVec.ofNat_toNat, BitVec.setWidth_eq]

/-- Settles O4: the queued command of `withFetchWord` is itself a write of `CMD` to an idle core. -/
theorem stepRunsTheDecodedCommand : Obligations.StepRunsTheDecodedCommand := by
  refine ⟨fun s rest w i hp hb hh hd => step_writeCmd hp hb hh hd, fun s i hp => ?_⟩
  rw [withFetchWord_encode]
  exact step_writeCmd (s := queueCommand (encode i) s) hp rfl rfl (decode_encode i)

/-! ### After reset -/

theorem exec_encode_badRate {s : State} (hb : s.baudOk = false) :
    exec .encode s = .next (complete (raise .invalid (latchSpbOnInvalid (setTxsCount 0 (accept s))))) := by
  rcases exec_encode_cases s with ⟨⟨h, -⟩, -⟩ | ⟨⟨h, -⟩, -⟩ | ⟨-, h⟩
  · simp [hb] at h
  · simp [hb] at h
  · exact h

theorem exec_decode_badRate {s : State} (hb : s.baudOk = false) :
    exec .decode s = .next (complete (raise .invalid (latchSpbOnInvalid (setRxpos 0 (setRxbCount 0 (accept s)))))) := by
  rcases exec_decode_cases s with ⟨⟨h, -⟩, -⟩ | ⟨-, h⟩
  · simp [hb] at h
  · exact h

theorem reset_baudOk : State.reset.baudOk = false := by decide

/-- Settles O6: the registers by evaluation, the two commands by the illegal rate. -/
theorem resetValues : Obligations.ResetValues := by
  have hencode : ∃ t, exec .encode State.reset = .next t ∧ Ended t .invalid false ∧ t.txsCount = 0#32 :=
    ⟨_, exec_encode_badRate reset_baudOk, ⟨rfl, rfl, rfl⟩, rfl⟩
  have hdecode : ∃ t, exec .decode State.reset = .next t ∧ Ended t .invalid false ∧ t.rxbCount = 0#32 :=
    ⟨_, exec_decode_badRate reset_baudOk, ⟨rfl, rfl, rfl⟩, rfl⟩
  have hfmt : State.reset.fmtOk = false := by decide
  exact ⟨rfl, rfl, rfl, hfmt, rfl, reset_baudOk, rfl, rfl, rfl, rfl, rfl, rfl, rfl, rfl, rfl, rfl, rfl, rfl, rfl, rfl,
    rfl, hencode, hdecode⟩

/-- Settles O47: the state after reset is idle, with nothing written and every count 0. -/
theorem resetMeetsTheInvariant : Obligations.ResetMeetsTheInvariant :=
  inv_of_idle (by decide) (by decide) (by decide) (by decide) (by decide) rfl (by decide) rfl rfl

/-! ### Layouts -/

theorem Status.toWord_getLsbD (st : Status) (k : Nat) : st.toWord.getLsbD k =
    if k = 0 then st.busy else if k = 1 then st.done else if k = 2 then st.trunc else if k = 3 then false
    else st.err.code.getLsbD (k - 4) := by
  have h : st.toWord.getLsbD k = (0#25 ++ st.err.code ++ 0#1 ++ BitVec.ofBool st.trunc ++ BitVec.ofBool st.done ++
    BitVec.ofBool st.busy : BitVec (25 + 3 + 1 + 1 + 1 + 1)).getLsbD k := rfl
  rw [h]
  rcases k with _ | _ | _ | _ | k <;> simp only [BitVec.getLsbD_append] <;> simp
  exact BitVec.lt_of_getLsbD

theorem Status.toWord_getLsbD_from_err (st : Status) (k : Nat) :
    st.toWord.getLsbD (4 + k) = st.err.code.getLsbD k := by
  rw [toWord_getLsbD, if_neg (by omega), if_neg (by omega), if_neg (by omega), if_neg (by omega),
    Nat.add_sub_cancel_left]

theorem Status.toWord_err (st : Status) : st.toWord.extractLsb' 4 3 = st.err.code := by
  apply BitVec.eq_of_getLsbD_eq
  intro k hk
  rw [BitVec.getLsbD_extractLsb', decide_eq_true hk, Bool.true_and, toWord_getLsbD_from_err]

theorem ResultReg.toWord_getLsbD (r : ResultReg) (k : Nat) : r.toWord.getLsbD k =
    if k < 8 then r.value.getLsbD k else decide (k = 8) && r.accept := by
  have h : r.toWord.getLsbD k = (0#23 ++ BitVec.ofBool r.accept ++ r.value : BitVec (23 + 1 + 8)).getLsbD k := rfl
  rw [h, BitVec.getLsbD_append, BitVec.getLsbD_append]
  rcases lt_trichotomy k 8 with hk | rfl | hk
  · rw [if_pos hk, if_pos hk]
  · simp
  · rw [if_neg (by omega), if_neg (by omega), if_neg (by omega), decide_eq_false (by omega), BitVec.getLsbD_zero,
      Bool.false_and]

theorem ResultReg.toWord_value (r : ResultReg) : r.toWord.extractLsb' 0 8 = r.value := by
  apply BitVec.eq_of_getLsbD_eq
  intro k hk
  rw [BitVec.getLsbD_extractLsb', ResultReg.toWord_getLsbD]
  simp [hk]

/-- Settles O49: the three words bit by bit, by where each field is appended. -/
theorem statusWordsAreLaidOutAsTheRulesSay : Obligations.StatusWordsAreLaidOutAsTheRulesSay := by
  refine ⟨fun st => ?_, fun r => ?_, fun x => ?_⟩
  · have hbit := st.toWord_getLsbD
    refine ⟨hbit 0, hbit 1, hbit 2, hbit 3, ?_, fun k hk => ?_⟩
    · rw [st.toWord_err]
      cases st.err <;> rfl
    · obtain ⟨j, rfl⟩ := Nat.exists_eq_add_of_le hk
      rw [Nat.add_assoc 4 3 j, st.toWord_getLsbD_from_err]
      exact BitVec.getLsbD_of_ge _ _ (by omega)
  · have hbit := r.toWord_getLsbD
    refine ⟨r.toWord_value, hbit 8, fun k hk => ?_⟩
    rw [hbit, if_neg (by omega), decide_eq_false (by omega), Bool.false_and]
  · cases x <;> rfl

theorem dataBits_eq (s : State) : s.dataBits = s.format.toNat % 16 := by
  simp [State.dataBits]

theorem parityCode_toNat (s : State) : s.parityCode.toNat = s.format.toNat / 16 % 4 := by
  simp [State.parityCode, Nat.shiftRight_eq_div_pow]

theorem stopBits_eq (s : State) : s.stopBits = s.format.toNat / 256 % 256 := by
  simp [State.stopBits, Nat.shiftRight_eq_div_pow]

theorem argByte_toNat (s : State) : s.argByte.toNat = s.arg.toNat % 256 := by
  simp [State.argByte]

theorem argBit_eq (s : State) : s.argBit = decide (s.arg.toNat % 2 = 1) := by
  rw [State.argBit, ← BitVec.testBit_toNat, Nat.testBit_zero]

/-- Settles O51: each field as a quotient and a remainder of its word. -/
theorem operandFieldsStandWhereTheRulesSay : Obligations.OperandFieldsStandWhereTheRulesSay := by
  refine ⟨fun s => ⟨dataBits_eq s, parityCode_toNat s, stopBits_eq s, argByte_toNat s, argBit_eq s⟩, ?_, ?_, ?_, ?_⟩ <;>
  · intro s h
    simp [State.dataBits, State.parityMode, State.stopBits, State.parityCode, parityOf, h]

/-- Well-formed parameters fit the registers that hold them (10_state.md R26). -/
theorem params_fit {p : Params} (hp : p.ok = true) :
    p.sampleRate < 2 ^ 32 ∧ p.fSpace < 2 ^ 32 ∧ p.fMark < 2 ^ 32 ∧ p.cap < 2 ^ 32 := by
  obtain ⟨⟨⟨-, hr⟩, -, hs, hm⟩, -, ⟨-, hc⟩, -⟩ := (params_ok_iff p).1 hp
  omega

/-- Settles O50: the offsets by evaluation, the parameters by their bounds. -/
theorem registerMapInNumbers : Obligations.RegisterMapInNumbers := by
  intro s
  refine ⟨rfl, rfl, rfl, rfl, rfl, rfl, rfl, rfl, rfl, rfl, rfl, rfl, rfl, rfl, fun hp => ?_, fun o h => ?_,
    rfl, rfl, rfl, rfl, rfl, rfl, rfl, rfl⟩
  · obtain ⟨hr, hs, hm, hc⟩ := params_fit hp
    exact ⟨toNat_ofNat_32 hr, toNat_ofNat_32 hs, toNat_ofNat_32 hm, toNat_ofNat_32 hc⟩
  · have hreg : ∃ r, regAt o = some r := by
      refine h.elim (fun hne => ?_) id
      rw [← Option.ne_none_iff_exists']
      exact mt (busRead_unmapped s 4) hne
    obtain ⟨r, hr⟩ := hreg
    rw [regAt_eq_some hr]
    exact r.offset_bounds

/-! ### The records of a classification -/

theorem step_running_decode {s : State} (hI : Inv s) (hr : s.running = some .decode) (hh : s.host = []) :
    step s = .next (rxStep s) := by
  rw [← coreTurn_decode (hI.busy_of_running hr) hr]
  simp [step, hI.params, hh]

/-- A row that classifies. -/
theorem rxStep_records_count {s : State}
    (h : (s.rxState = .searching ∧ s.rxpos.toNat + s.charLen ≤ s.rxsCount.toNat ∧ s.rxbCount.toNat ≠ s.params.cap) ∨
      s.rxState = .data) :
    (rxStep s).xcount = BitVec.ofNat 32 (crossingsAt s s.rxpos.toNat) ∧
      (rxStep s).work.xc = crossingsAt s s.rxpos.toNat ∧ (rxStep s).work.wi = s.samplesPerBit := by
  rcases h with ⟨hx, hpos, hroom⟩ | hx
  · rcases rxStep_searching_cases hx with ⟨h, -⟩ | ⟨-, h, -⟩ | ⟨-, -, -, h⟩ | ⟨-, -, -, h⟩
    · omega
    · exact absurd h hroom
    · simp [h]
    · simp [h]
  · rcases rxStep_data_cases hx with ⟨-, h⟩ | ⟨-, -, h⟩ | ⟨-, -, h⟩ <;> simp [h, dataWork, shiftIn]

/-- The row that ends the command. -/
theorem rxStep_end_keeps_xcount {s : State} (hx : s.rxState = .searching)
    (h : s.rxpos.toNat + s.charLen > s.rxsCount.toNat ∨ s.rxbCount.toNat = s.params.cap) :
    (rxStep s).xcount = s.xcount := by
  rcases rxStep_searching_cases hx with ⟨-, he⟩ | ⟨-, -, he⟩ | ⟨h1, h2, -⟩ | ⟨h1, h2, -⟩
  · simp [he]
  · simp [he]
  · omega
  · omega

/-- A row that reads no window. -/
theorem rxStep_keeps_records {s : State}
    (h : s.rxState = .startConfirmed ∨ s.rxState = .parity ∨ s.rxState = .stop) :
    (rxStep s).xcount = s.xcount ∧ (rxStep s).work.xc = s.work.xc ∧ (rxStep s).work.wi = s.work.wi := by
  rcases h with hx | hx | hx
  · simp [rxStep_startConfirmed hx]
  · simp [rxStep_parity hx]
  · rcases rxStep_stop_cases hx with ⟨-, h⟩ | ⟨-, h⟩ <;> simp [h]

/-- Settles O53: the rows of 43_modem_stream.md R125 in three kinds. -/
theorem decodeMachineRecordsEachCount : Obligations.DecodeMachineRecordsEachCount := by
  intro s hI hr hh
  refine ⟨rxStep s, step_running_decode hI hr hh, fun h => ?_, fun ⟨hx, h⟩ => rxStep_end_keeps_xcount hx h,
    rxStep_keeps_records⟩
  obtain ⟨hxcount, hxc, hwi⟩ := rxStep_records_count h
  exact ⟨by rw [hxcount, crossingsAt_fits hI.params], hxc, hwi⟩

/-! ### `SPB` -/

theorem samplesPerBit_eq_div {s : State} (hb : s.baudOk = true) :
    s.samplesPerBit = s.params.sampleRate / s.baud.toNat := by
  obtain ⟨h, -⟩ := (baudOk_iff s).1 hb
  have hnat : s.baud.toInt.toNat = s.baud.toNat := by
    have hcond := BitVec.toInt_eq_toNat_cond s.baud
    split at hcond <;> omega
  rw [State.samplesPerBit, hnat]

/-- However a command other than `NOP` and `PARITY` ends, it has latched `SPB` at a legal rate or left there what an
INVALID leaves. -/
theorem exec_spb {i : Instr} (s : State) (hn : i ≠ .nop) (hp : i ≠ .parity) : ∃ t, exec i s = .next t ∧
    ((s.baudOk = true ∧ t.spb = BitVec.ofNat 32 s.samplesPerBit) ∨ t.spb = (latchSpbOnInvalid s).spb) := by
  cases i with
  | nop => exact absurd rfl hn
  | parity => exact absurd rfl hp
  | encode =>
    rcases exec_encode_cases s with ⟨⟨hb, -⟩, -, h⟩ | ⟨⟨hb, -⟩, -, h⟩ | ⟨-, h⟩
    · exact ⟨_, h, .inl ⟨hb, rfl⟩⟩
    · exact ⟨_, h, .inl ⟨hb, rfl⟩⟩
    · exact ⟨_, h, .inr rfl⟩
  | decode =>
    rcases exec_decode_cases s with ⟨⟨hb, -⟩, h⟩ | ⟨-, h⟩
    · exact ⟨_, h, .inl ⟨hb, rfl⟩⟩
    · exact ⟨_, h, .inr rfl⟩
  | frameEnc =>
    rcases exec_frameEnc_cases s with ⟨⟨hb, -⟩, -, h⟩ | ⟨⟨hb, -⟩, -, h⟩ | ⟨-, h⟩
    · exact ⟨_, h, .inl ⟨hb, rfl⟩⟩
    · exact ⟨_, h, .inl ⟨hb, rfl⟩⟩
    · exact ⟨_, h, .inr rfl⟩
  | frameDec =>
    rcases exec_frameDec_cases s with ⟨⟨hb, -⟩, -, -, h⟩ | ⟨⟨hb, -⟩, -, -, h⟩ | ⟨⟨hb, -⟩, -, h⟩ | ⟨-, h⟩
    · exact ⟨_, h, .inl ⟨hb, rfl⟩⟩
    · exact ⟨_, h, .inl ⟨hb, rfl⟩⟩
    · exact ⟨_, h, .inl ⟨hb, rfl⟩⟩
    · exact ⟨_, h, .inr rfl⟩
  | synth =>
    rcases exec_synth_cases s with ⟨hb, -, h⟩ | ⟨hb, -, h⟩ | ⟨-, h⟩
    · exact ⟨_, h, .inl ⟨hb, rfl⟩⟩
    · exact ⟨_, h, .inl ⟨hb, rfl⟩⟩
    · exact ⟨_, h, .inr rfl⟩
  | classify =>
    rcases exec_classify_cases s with ⟨⟨hb, -⟩, -, h⟩ | ⟨⟨hb, -⟩, -, h⟩ | ⟨-, h⟩
    · exact ⟨_, h, .inl ⟨hb, rfl⟩⟩
    · exact ⟨_, h, .inl ⟨hb, rfl⟩⟩
    · exact ⟨_, h, .inr rfl⟩

/-- Settles O54, by the two things a command can do to `SPB`. -/
theorem spbIsWrittenWheneverTheRateIsLegal : Obligations.SpbIsWrittenWheneverTheRateIsLegal := by
  intro i s hp hn hpar
  obtain ⟨t, ht, hspb⟩ := exec_spb s hn hpar
  refine ⟨fun htiming hb => ⟨t, ht, ?_⟩, fun hb => ⟨t, ht, ?_⟩⟩
  · have hlatched : t.spb = BitVec.ofNat 32 s.samplesPerBit := by
      rcases hspb with ⟨-, h⟩ | h
      · exact h
      · rw [h, latchSpbOnInvalid_spb, if_pos ⟨htiming, hb⟩]
    rw [hlatched, samplesPerBit_fits hp, samplesPerBit_eq_div hb]
  · rcases hspb with ⟨h, -⟩ | h
    · simp [hb] at h
    · simp [h, hb]

end Sys2Proof.Machine
end

section
/-! PROOFS. The buffers as the host sees them (20_memory.md R40, R46, R47, R50). -/

namespace Sys2Proof.Machine

variable {s : State} {rest : List HostAct}

/-! ### Moves that are not the host's or name no element -/

/-- A move on a buffer of a busy core is refused, whichever it is. -/
theorem step_buffer_busy {a : HostAct} {o : State → Host.Outcome State Fault Refusal} (hp : s.params.ok = true)
    (hh : s.host = a :: rest) (hb : s.status.busy = true) (ha : ∀ u, hostMove a u = whenOwned u (o u)) :
    step s = .refused .bufferWhileBusy := by
  rw [step_host hp hh, ha]
  exact whenOwned_busy hb _

/-- On an idle core a move on a buffer is what it does to its elements. -/
theorem step_buffer_idle {a : HostAct} {o : State → Host.Outcome State Fault Refusal} (hp : s.params.ok = true)
    (hh : s.host = a :: rest) (hb : s.status.busy = false) (ha : ∀ u, hostMove a u = whenOwned u (o u)) :
    step s = o { s with host := rest } := by
  rw [step_host hp hh, ha]
  exact whenOwned_idle hb _

theorem withSamples_past {b : SampleBuf} {n : Nat} (h : s.params.sampleCapacity b < n)
    (o : Host.Outcome State Fault Refusal) : withSamples s b 0 n o = .fault (.noSuchSample b (n - 1)) := by
  rw [withSamples, if_neg (by omega), Nat.zero_add]

/-- Settles O12: each move is tested for ownership, then for its elements, the source before the destination. -/
theorem bufferMovesNeedOwnershipAndAnElement : Obligations.BufferMovesNeedOwnershipAndAnElement := by
  intro s rest hp
  refine ⟨fun a hb hh ha => ?_, fun b i n hb hh hout => ?_, fun b i n hb hh hout => ?_, fun b i v vs hb hh hout => ?_,
    fun b i v vs hb hh hout => ?_, fun c i d j n hb hh => ⟨fun hout => ?_, fun hin hout => ?_⟩,
    fun hb hh => ⟨fun hout => ?_, fun hin hout => ?_⟩⟩
  · rcases ha with ⟨b, i, vs, rfl⟩ | ⟨b, i, vs, rfl⟩ | ⟨b, i, n, rfl⟩ | ⟨b, i, n, rfl⟩ | ⟨c, i, d, j, n, rfl⟩ | rfl <;>
      exact step_buffer_busy hp hh hb fun _ => rfl
  · rw [step_buffer_idle hp hh hb fun _ => rfl]
    exact withBytes_outside hout _
  · rw [step_buffer_idle hp hh hb fun _ => rfl]
    exact withSamples_outside hout _
  · rw [step_buffer_idle hp hh hb fun _ => rfl]
    exact withBytes_outside hout _
  · rw [step_buffer_idle hp hh hb fun _ => rfl]
    exact withSamples_outside hout _
  · rw [step_buffer_idle hp hh hb fun _ => rfl]
    exact withSamples_outside hout _
  · rw [step_buffer_idle hp hh hb fun _ => rfl]
    exact (withSamples_inside hin _).trans (withSamples_outside hout _)
  · rw [step_buffer_idle hp hh hb fun _ => rfl]
    exact withSamples_past hout _
  · rw [step_buffer_idle hp hh hb fun _ => rfl]
    exact (withSamples_inside (by rwa [Nat.zero_add]) _).trans (withSamples_past hout _)

/-! ### Writes of elements -/

theorem readByte_writeBytes_inside (b : ByteBuf) (i k : Nat) (vs : List Byte) (h : k < vs.length) :
    readByte (writeBytes b i vs s) b (i + k) = vs[k] := by
  rw [readByte_writeBytes, if_pos ⟨rfl, by omega, by omega⟩, Nat.add_sub_cancel_left, List.getElem?_eq_getElem h]
  rfl

theorem readByte_writeBytes_outside {b b' : ByteBuf} {i a : Nat} {vs : List Byte}
    (h : b' ≠ b ∨ a < i ∨ i + vs.length ≤ a) : readByte (writeBytes b i vs s) b' a = readByte s b' a := by
  rw [readByte_writeBytes, if_neg]
  rintro ⟨rfl, hlo, hhi⟩
  rcases h with h | h
  · exact h rfl
  · omega

theorem readSample_writeSamples_inside (b : SampleBuf) (i k : Nat) (vs : List Sample) (h : k < vs.length) :
    readSample (writeSamples b i vs s) b (i + k) = vs[k] := by
  rw [readSample_writeSamples, if_pos ⟨rfl, by omega, by omega⟩, Nat.add_sub_cancel_left, List.getElem?_eq_getElem h]
  rfl

theorem readSample_writeSamples_outside {b b' : SampleBuf} {i a : Nat} {vs : List Sample}
    (h : b' ≠ b ∨ a < i ∨ i + vs.length ≤ a) : readSample (writeSamples b i vs s) b' a = readSample s b' a := by
  rw [readSample_writeSamples, if_neg]
  rintro ⟨rfl, hlo, hhi⟩
  rcases h with h | h
  · exact h rfl
  · omega

/-- Settles O11: a load inside the capacity is the write of its block, and no register holds a buffer element. -/
theorem bufferElementsReadAsWritten : Obligations.BufferElementsReadAsWritten := by
  intro s rest i hp hb
  refine ⟨fun b vs hh hin => ?_, fun b vs hh hin => ?_⟩
  · have hstep : step s = .next (writeBytes b i vs { s with host := rest }) := by
      rw [step_buffer_idle hp hh hb fun _ => rfl]
      exact withBytes_inside hin _
    refine ⟨_, hstep, fun k => readByte_writeBytes_inside b i k vs, fun b' a => readByte_writeBytes_outside,
      fun b' a => readSample_writeBytes .., fun r => ?_⟩
    rw [readReg_writeBytes, readReg_host]
  · have hstep : step s = .next (writeSamples b i vs { s with host := rest }) := by
      rw [step_buffer_idle hp hh hb fun _ => rfl]
      exact withSamples_inside hin _
    refine ⟨_, hstep, fun k => readSample_writeSamples_inside b i k vs, fun b' a => readSample_writeSamples_outside,
      fun b' a => readByte_writeSamples .., fun r => ?_⟩
    rw [readReg_writeSamples, readReg_host]

end Sys2Proof.Machine
end

section
/-! PROOFS. The invariant of a step (20_memory.md R41, 43_modem_stream.md R128 and R129): its part about the data, which
every update keeps alone, and its part about a running command, turn by turn. -/

namespace Sys2Proof.Machine

/-! ### The part of the invariant that no running command matters to -/

/-- The invariant's clauses on the parameters, the memory, `RXB_COUNT`, `FORMAT` and `TRUNC`, over these components, so
that an update of anything else keeps them by definition. -/
structure DataInv (p : Params) (m : Memory) (rxbCount format : Word) (st : Status) : Prop where
  params : p.ok = true
  canonical : m.wf = true
  within : m.within p = true
  rxbCount : rxbCount.toNat ≤ p.cap
  format : format &&& ~~~formatMask = 0#32
  truncErr : st.trunc = true → st.err = .none

/-- Those clauses of a state. -/
abbrev State.DataOk (s : State) : Prop := DataInv s.params s.mem s.rxbCount s.format s.status

variable {s t : State}

theorem Inv.dataOk (h : Inv s) : s.DataOk :=
  ⟨h.params, h.canonical, h.within, h.rxbCount, h.format, h.truncErr⟩

/-- On an idle core the invariant is about the data alone. -/
theorem State.DataOk.inv_of_idle (h : s.DataOk) (hb : s.status.busy = false) (hx : s.rxState = .idle)
    (hr : s.running = none) : Inv s :=
  Machine.inv_of_idle h.params h.canonical h.within h.rxbCount h.format hb h.truncErr hx hr

theorem State.DataOk.inv_complete (h : s.DataOk) : Inv (complete s) :=
  State.DataOk.inv_of_idle (s := complete s) { h with truncErr := h.truncErr } rfl rfl rfl

/-- The host's updates of an idle core keep the invariant when they keep the data. -/
theorem Inv.of_idle_update (h : Inv s) (hb : s.status.busy = false) (ht : t.DataOk) (hs : t.status = s.status)
    (hx : t.rxState = s.rxState) (hr : t.running = s.running) : Inv t := by
  obtain ⟨hidle, hnone⟩ := h.idle hb
  exact ht.inv_of_idle (hs ▸ hb) (hx.trans hidle) (hr.trans hnone)

theorem State.DataOk.writeBytes (h : s.DataOk) (b : ByteBuf) (i : Nat) (vs : List Byte)
    (hn : vs.length = 0 ∨ i + vs.length ≤ s.params.byteCapacity b) : (writeBytes b i vs s).DataOk :=
  { h with
    canonical := memory_storeBytes_wf h.canonical b i vs
    within := memory_storeBytes_within h.within b i vs hn }

theorem State.DataOk.writeSamples (h : s.DataOk) (b : SampleBuf) (i : Nat) (vs : List Sample)
    (hn : vs.length = 0 ∨ i + vs.length ≤ s.params.sampleCapacity b) : (writeSamples b i vs s).DataOk :=
  { h with
    canonical := memory_storeSamples_wf h.canonical b i vs
    within := memory_storeSamples_within h.within b i vs hn }

theorem State.DataOk.accept (h : s.DataOk) : (accept s).DataOk :=
  { h with truncErr := fun _ => rfl }

theorem State.DataOk.raise (h : s.DataOk) (hst : s.status = ⟨true, false, false, .none⟩) (e : ErrCode) :
    (raise e s).DataOk :=
  { h with truncErr := fun ht => by simp [hst] at ht }

theorem State.DataOk.setTrunc (h : s.DataOk) (hst : s.status = ⟨true, false, false, .none⟩) (b : Bool) :
    (setTrunc b s).DataOk :=
  { h with truncErr := fun _ => by simp [hst] }

theorem State.DataOk.setRxbCount (h : s.DataOk) {n : Nat} (hn : n ≤ s.params.cap) : (setRxbCount n s).DataOk :=
  { h with
    rxbCount := by
      have := (params_fit h.params).2.2.2
      rw [setRxbCount_rxbCount, toNat_ofNat_32 (by omega)]
      exact hn }

/-! ### The commands -/

/-- What a command does between acceptance and completion. -/
def bodyOf : Instr → State → State
  | .nop => nopBody
  | .encode => encodeBody
  | .decode => decodeBody
  | .frameEnc => frameEncBody
  | .frameDec => frameDecBody
  | .synth => synthBody
  | .classify => classifyBody
  | .parity => parityBody

theorem exec_eq_command (i : Instr) (s : State) : exec i s = .next (command (bodyOf i) s) := by cases i <;> rfl

section Bodies

variable (h : s.DataOk) (hst : s.status = ⟨true, false, false, .none⟩)
include h hst

theorem parityBody_dataOk : (parityBody s).DataOk := by
  rcases parityBody_cases s with ⟨m, -, he⟩ | ⟨-, -, he⟩ <;> rw [he]
  · exact h
  · exact h.raise hst _

theorem synthBody_dataOk : (synthBody s).DataOk := by
  rcases synthBody_cases s with ⟨-, hfit, he⟩ | ⟨-, -, he⟩ | ⟨-, he⟩ <;> rw [he]
  · exact h.writeSamples .txs _ _ (.inr (by rw [synth_length]; exact hfit))
  · exact h.raise hst _
  · exact h.raise hst _

theorem frameEncBody_dataOk : (frameEncBody s).DataOk := by
  rcases frameEncBody_cases s with ⟨⟨-, hf⟩, hfit, he⟩ | ⟨-, -, he⟩ | ⟨-, he⟩ <;> rw [he]
  · exact h.writeSamples .txs _ _ (.inr (by rw [frameEnc_length hf]; exact hfit))
  · exact h.raise hst _
  · exact h.raise hst _

theorem classifyBody_dataOk : (classifyBody s).DataOk := by
  rcases classifyBody_cases s with ⟨-, -, he⟩ | ⟨-, -, he⟩ | ⟨-, he⟩ <;> rw [he]
  · exact h
  · exact h.raise hst _
  · exact h.raise hst _

theorem frameDecBody_dataOk : (frameDecBody s).DataOk := by
  rcases frameDecBody_cases s with ⟨-, -, -, he⟩ | ⟨-, -, -, he⟩ | ⟨-, -, he⟩ | ⟨-, he⟩ <;> rw [he]
  · exact h
  · exact h
  · exact h.raise hst _
  · exact h.raise hst _

theorem encodeBody_dataOk : (encodeBody s).DataOk := by
  rw [encodeBody]
  rcases encodeWith_cases encodeWrite s with ⟨⟨-, hf, -⟩, hfit, he⟩ | ⟨-, -, he⟩ | ⟨-, he⟩ <;> rw [he]
  · refine h.writeSamples .txs 0 (encodeStream s (payload s)) (.inr ?_)
    rw [encodeStream_length hf, payload_length, Nat.zero_add]
    exact encodeTotal_eq s ▸ hfit
  · exact h.raise hst _
  · exact h.raise hst _

/-- The output of the receive pass fits RXB (43_modem_stream.md R128). -/
theorem decodeFinish_dataOk {e : DecodeEnd} (he : e.out.length ≤ s.params.cap) : (decodeFinish e s).DataOk := by
  have hwritten : (writeBytes .rxb 0 e.out s).DataOk := h.writeBytes .rxb 0 e.out (.inr (by rwa [Nat.zero_add]))
  exact State.DataOk.setTrunc (hwritten.setRxbCount he) hst _

theorem decodeBody_dataOk : (decodeBody s).DataOk := by
  have hempty := h.setRxbCount (Nat.zero_le _)
  rw [decodeBody]
  rcases decodeWith_cases decodeRun s with ⟨⟨hb, hf, -⟩, he⟩ | ⟨-, he⟩ <;> rw [he]
  · have hends := decodeStream_ends (s := latchSpb (setRxpos 0 (setRxbCount 0 s))) (charLen_pos hb hf)
    exact decodeFinish_dataOk (s := latchSpb (setRxpos 0 (setRxbCount 0 s))) hempty hst hends.cap
  · exact hempty.raise hst _

theorem bodyOf_dataOk (i : Instr) : (bodyOf i s).DataOk := by
  cases i with
  | nop => exact h
  | encode => exact encodeBody_dataOk h hst
  | decode => exact decodeBody_dataOk h hst
  | frameEnc => exact frameEncBody_dataOk h hst
  | frameDec => exact frameDecBody_dataOk h hst
  | synth => exact synthBody_dataOk h hst
  | classify => exact classifyBody_dataOk h hst
  | parity => exact parityBody_dataOk h hst

end Bodies

/-- A whole command ends in a state of the invariant (43_modem_stream.md R120). -/
theorem command_bodyOf_inv (h : s.DataOk) (i : Instr) : Inv (command (bodyOf i) s) :=
  (bodyOf_dataOk h.accept rfl i).inv_complete

theorem illegalCommand_inv (h : s.DataOk) : Inv (illegalCommand s) :=
  (h.accept.raise rfl _).inv_complete

end Sys2Proof.Machine
end

section
/-! PROOFS. Every step keeps the invariant: the turns of a running command, the host's moves, the step. -/

namespace Sys2Proof.Machine

variable {s t : State}

/-! ### The turns of a running `DECODE` -/

theorem fmtOk_bounds (h : s.fmtOk = true) : 1 ≤ s.dataBits ∧ s.dataBits ≤ 8 ∧ 1 ≤ s.stopBits := by
  simp only [State.fmtOk, Bool.and_eq_true, decide_eq_true_eq] at h
  omega

/-- The invariant says nothing of `XCOUNT`, of the host's moves to come and of its last answer. -/
theorem Inv.withRecords (h : Inv s) (x : Word) (acts : List HostAct) (r : Reply) :
    Inv { s with xcount := x, host := acts, reply := r } where
  params := h.params
  canonical := h.canonical
  within := h.within
  rxbCount := h.rxbCount
  format := h.format
  busyDone := h.busyDone
  truncErr := h.truncErr
  idle := h.idle
  busy := h.busy
  rxOnly := h.rxOnly
  rx hr := by
    obtain ⟨config, active, window, room, kbit, shift, parity, jstop⟩ := h.rx hr
    exact ⟨config, active, window, room, kbit, shift, parity, jstop⟩
  tx hr := by
    obtain ⟨config, fits, txi, inner⟩ := h.tx hr
    exact ⟨config, fits, txi, inner⟩

/-- A turn that moves `RXPOS` on by one window, goes on in `x` and leaves the working registers at `w`. -/
def windowTurn (x : RxState) (w : Work) (s : State) : State :=
  setRxState x (setRxpos (s.rxpos.toNat + s.samplesPerBit) (setWork w s))

theorem dataTurn_eq_windowTurn (x : RxState) (w : Work) (s : State) :
    dataTurn x w s = windowTurn x w (setXcount (crossingsAt s s.rxpos.toNat) s) := rfl

theorem stopTurn_eq_windowTurn (x : RxState) (s : State) :
    stopTurn x s = windowTurn x { s.work with jstop := s.work.jstop + 1#8 } s := rfl

/-- A turn that consumes one window of a character leaves the others inside the valid part of RXS. -/
theorem RxInv.window_turn (hr : RxInv s) (hin : s.rxState.inCharacter = true)
    (hpos : t.rxpos = BitVec.ofNat 32 (s.rxpos.toNat + s.samplesPerBit)) (hleft : t.windowsLeft + 1 ≤ s.windowsLeft) :
    t.rxpos.toNat + t.windowsLeft * s.samplesPerBit ≤ s.rxsCount.toNat := by
  have hle := Nat.mul_le_mul_right s.samplesPerBit hleft
  rw [Nat.add_one_mul] at hle
  have := hr.window
  rw [hpos, hr.rxpos_step hin]
  omega

/-- A turn inside a character keeps the invariant when it uses up a window and the counters of `x` are in range. -/
theorem windowTurn_inv {x : RxState} {w : Work} (hI : Inv s) (hrun : s.running = some .decode)
    (hin : s.rxState.inCharacter = true) (hx : x ≠ .idle)
    (hleft : (windowTurn x w s).windowsLeft + 1 ≤ s.windowsLeft)
    (kbit : x = .data → w.kbit.toNat < s.dataBits) (shift : x = .data → w.shift.toNat < 2 ^ w.kbit.toNat)
    (parity : x = .parity → s.parityFlag = 1) (jstop : x = .stop → w.jstop.toNat < s.stopBits) :
    Inv (windowTurn x w s) :=
  inv_of_decode_turn hI hrun rfl rfl rfl rfl rfl rfl hI.canonical hI.within hI.rxbCount hx
    ((hI.rx hrun).window_turn hin rfl hleft) (fun _ => (hI.rx hrun).room hin) kbit shift parity jstop

/-- Between characters the output may change in any way that fits RXB. -/
theorem Inv.setOutput {n i : Nat} {vs : List Byte} (hI : Inv s) (hrun : s.running = some .decode)
    (hx : s.rxState = .searching) (hd : (setRxbCount n (writeBytes .rxb i vs s)).DataOk) :
    Inv (setRxbCount n (writeBytes .rxb i vs s)) := by
  have hwindow := (hI.rx hrun).window
  refine inv_of_decode_turn hI hrun rfl rfl rfl rfl rfl rfl hd.canonical hd.within hd.rxbCount ?_ hwindow ?_ ?_ ?_ ?_ ?_
    <;> simp [hx, RxState.inCharacter]

section Decode

variable (hI : Inv s) (hrun : s.running = some .decode)
include hI hrun

theorem rxStep_searching_inv (hx : s.rxState = .searching) : Inv (rxStep s) := by
  obtain ⟨hb, hf, -⟩ := (hI.rx hrun).checked
  rcases rxStep_searching_cases hx with ⟨-, he⟩ | ⟨-, -, he⟩ | ⟨hpos, -, -, he⟩ | ⟨hpos, hroom, -, he⟩ <;> rw [he]
  · exact hI.dataOk.inv_complete
  · exact (hI.dataOk.setTrunc (hI.busy_status (hI.busy_of_running hrun)) true).inv_complete
  · have hL := charLen_pos hb hf
    have hnext : (BitVec.ofNat 32 (s.rxpos.toNat + 1)).toNat = s.rxpos.toNat + 1 := toNat_ofNat_32 (by omega)
    have hwindow : (BitVec.ofNat 32 (s.rxpos.toNat + 1)).toNat + 0 * s.samplesPerBit ≤ s.rxsCount.toNat := by omega
    refine inv_of_decode_turn hI hrun rfl rfl rfl rfl rfl rfl hI.canonical hI.within hI.rxbCount ?_
      (by simpa [State.windowsLeft, hx] using hwindow) ?_ ?_ ?_ ?_ ?_ <;> simp [hx, RxState.inCharacter]
  · refine inv_of_decode_turn hI hrun rfl rfl rfl rfl rfl rfl hI.canonical hI.within hI.rxbCount (by simp) hpos
      (fun _ => Nat.lt_of_le_of_ne hI.rxbCount hroom) ?_ ?_ ?_ ?_ <;> simp

theorem rxStep_startConfirmed_inv (hx : s.rxState = .startConfirmed) : Inv (rxStep s) := by
  obtain ⟨-, hf, -⟩ := (hI.rx hrun).checked
  obtain ⟨hdata, -, -⟩ := fmtOk_bounds hf
  rw [rxStep_startConfirmed hx]
  refine windowTurn_inv hI hrun (by rw [hx]; rfl) (by simp) ?_ (fun _ => hdata) (fun _ => by simp) (by simp) (by simp)
  simp [windowTurn, State.windowsLeft, hx, State.frameBits]

theorem rxStep_data_inv (hx : s.rxState = .data) : Inv (rxStep s) := by
  have hrx := hI.rx hrun
  have hin : s.rxState.inCharacter = true := by rw [hx]; rfl
  obtain ⟨-, hf, -⟩ := hrx.checked
  obtain ⟨-, hdata, hstop⟩ := fmtOk_bounds hf
  have hkbit := hrx.kbit hx
  have hnext := kbit_succ hf hkbit
  have hI' : Inv (setXcount (crossingsAt s s.rxpos.toNat) s) := hI.withRecords _ _ _
  rcases rxStep_data_cases hx with ⟨hlt, he⟩ | ⟨hle, hp, he⟩ | ⟨hle, hp, he⟩ <;> rw [he, dataTurn_eq_windowTurn]
  · refine windowTurn_inv hI' hrun hin (by simp) ?_ (fun _ => hlt) (fun _ => ?_) (by simp) (by simp)
    · simp [windowTurn, State.windowsLeft, hx, dataWork, shiftIn, hnext]
      omega
    · exact hnext ▸ shiftIn_lt _ _ (hrx.shift hx) (Nat.lt_of_lt_of_le hkbit hdata)
  · refine windowTurn_inv hI' hrun hin (by simp) ?_ (by simp) (by simp) (fun _ => hp) (by simp)
    simp [windowTurn, State.windowsLeft, hx]
    omega
  · refine windowTurn_inv hI' hrun hin (by simp) ?_ (by simp) (by simp) (by simp) (fun _ => hstop)
    simp [windowTurn, State.windowsLeft, hx]
    omega

theorem rxStep_parity_inv (hx : s.rxState = .parity) : Inv (rxStep s) := by
  obtain ⟨-, hf, -⟩ := (hI.rx hrun).checked
  obtain ⟨-, -, hstop⟩ := fmtOk_bounds hf
  rw [rxStep_parity hx]
  refine windowTurn_inv hI hrun (by rw [hx]; rfl) (by simp) ?_ (by simp) (by simp) (by simp) (fun _ => hstop)
  simp [windowTurn, State.windowsLeft, hx]

theorem rxStep_stop_inv (hx : s.rxState = .stop) : Inv (rxStep s) := by
  have hrx := hI.rx hrun
  have hin : s.rxState.inCharacter = true := by rw [hx]; rfl
  have hjstop := hrx.jstop hx
  have hnext := jstop_succ hjstop
  rcases rxStep_stop_cases hx with ⟨hlt, he⟩ | ⟨-, he⟩ <;> rw [he, stopTurn_eq_windowTurn]
  · refine windowTurn_inv hI hrun hin (by simp) ?_ (by simp) (by simp) (by simp) (fun _ => hlt)
    simp [windowTurn, State.windowsLeft, hx, hnext]
    omega
  · have hroom := hrx.room hin
    have hturn : Inv (windowTurn .searching { s.work with jstop := s.work.jstop + 1#8 } s) := by
      refine windowTurn_inv hI hrun hin (by simp) ?_ (by simp) (by simp) (by simp) (by simp)
      simp [windowTurn, State.windowsLeft, hx]
      omega
    exact hturn.setOutput hrun rfl
      (State.DataOk.setRxbCount (hturn.dataOk.writeBytes .rxb s.rxbCount.toNat [s.work.shift] (.inr hroom)) hroom)

theorem rxStep_inv : Inv (rxStep s) := by
  cases hx : s.rxState with
  | idle => exact absurd hx (hI.rx hrun).active
  | searching => exact rxStep_searching_inv hI hrun hx
  | startConfirmed => exact rxStep_startConfirmed_inv hI hrun hx
  | data => exact rxStep_data_inv hI hrun hx
  | parity => exact rxStep_parity_inv hI hrun hx
  | stop => exact rxStep_stop_inv hI hrun hx

end Decode

/-! ### The turns of a running `ENCODE` -/

/-- While a command runs the invariant is about the data and the command's own part. -/
theorem State.DataOk.inv_of_running {i : Instr} (h : t.DataOk) (hst : t.status = ⟨true, false, false, .none⟩)
    (hr : t.running = some i) (hx : t.rxState ≠ .idle → i = .decode) (hrx : i = .decode → RxInv t)
    (htx : i = .encode → TxInv t) : Inv t where
  params := h.params
  canonical := h.canonical
  within := h.within
  rxbCount := h.rxbCount
  format := h.format
  busyDone _ := by rw [hst]
  truncErr := h.truncErr
  idle hb := by simp [hst] at hb
  busy _ := by simp [hst, hr]
  rxOnly hne := by rw [hr, hx hne]
  rx hd := hrx (Option.some.inj (hr.symm.trans hd))
  tx he := htx (Option.some.inj (hr.symm.trans he))

theorem TxInv.checked (h : TxInv s) : s.baudOk = true ∧ s.fmtOk = true := by
  have hc := h.config
  simp only [Bool.and_eq_true] at hc
  exact hc.1

/-- The next sample lies inside the output (43_modem_stream.md R134). -/
theorem TxInv.txIndex_lt (h : TxInv s) (ht : s.work.txi.toNat < s.txbCount.toNat) : txIndex s < encodeTotal s := by
  obtain ⟨hk, hw⟩ := h.inner ht
  have hwindow := window_in_character s hk
  have hchar := Nat.mul_le_mul_right s.charLen ht
  rw [Nat.succ_mul] at hchar
  rw [encodeTotal_eq, txIndex]
  omega

/-- The nested counters go on by one sample, one window or one character. -/
theorem nextTx_cases (s : State) :
    (s.work.wi + 1 < s.samplesPerBit ∧ nextTx s = { s.work with wi := s.work.wi + 1 }) ∨
    (s.work.txk + 1 < s.frameBits ∧ nextTx s = { s.work with wi := 0, txk := s.work.txk + 1 }) ∨
    nextTx s = { s.work with wi := 0, txk := 0, txi := s.work.txi + 1#32 } := by
  unfold nextTx
  split
  · exact .inl ⟨‹_›, rfl⟩
  · split
    · exact .inr (.inl ⟨‹_›, rfl⟩)
    · exact .inr (.inr rfl)

theorem txStep_cases (s : State) :
    (s.work.txi.toNat < s.txbCount.toNat ∧
      txStep s = setWork (nextTx s) (writeSamples .txs (txIndex s) [txSample s] s)) ∨
    (s.txbCount.toNat ≤ s.work.txi.toNat ∧ txStep s = complete (setTxsCount (encodeTotal s) s)) := by
  unfold txStep
  split
  · exact .inl ⟨‹_›, rfl⟩
  · exact .inr ⟨by omega, rfl⟩

/-- The counters stay in range. -/
theorem TxInv.nextTx (h : TxInv s) (ht : s.work.txi.toNat < s.txbCount.toNat) : TxInv (setWork (nextTx s) s) := by
  obtain ⟨hb, hf⟩ := h.checked
  obtain ⟨hk, hw⟩ := h.inner ht
  have hspb := samplesPerBit_pos hb
  have hbits := frameBits_bounds hf
  rcases nextTx_cases s with ⟨hlt, he⟩ | ⟨hlt, he⟩ | he <;> rw [he]
  · exact ⟨h.config, h.fits, h.txi, fun _ => ⟨hk, hlt⟩⟩
  · exact ⟨h.config, h.fits, h.txi, fun _ => ⟨hlt, hspb⟩⟩
  · refine ⟨h.config, h.fits, ?_, fun _ => ⟨by simp; omega, hspb⟩⟩
    have := s.txbCount.isLt
    simp [BitVec.toNat_add]
    omega

theorem txStep_inv (hI : Inv s) (hrun : s.running = some .encode) : Inv (txStep s) := by
  have htx := hI.tx hrun
  rcases txStep_cases s with ⟨ht, he⟩ | ⟨-, he⟩ <;> rw [he]
  · have hfits := Nat.lt_of_lt_of_le (htx.txIndex_lt ht) htx.fits
    have hdata := hI.dataOk.writeSamples .txs (txIndex s) [txSample s] (.inr hfits)
    obtain ⟨config, fits, txi, inner⟩ := htx.nextTx ht
    exact State.DataOk.inv_of_running (i := .encode) hdata (hI.busy_status (hI.busy_of_running hrun)) hrun
      (fun hne => Option.some.inj (hrun.symm.trans (hI.rxOnly hne))) (fun h => by cases h)
      (fun _ => ⟨config, fits, txi, inner⟩)
  · exact State.DataOk.inv_complete (s := setTxsCount (encodeTotal s) s) hI.dataOk

/-! ### Turns of the core, launched commands -/

theorem coreTurn_idle (hb : s.status.busy = false) : coreTurn s = s := by
  simp [coreTurn, hb]

/-- A running command other than the two streams ends in its one turn (log 17). -/
theorem coreTurn_unit {i : Instr} (hb : s.status.busy = true) (hr : s.running = some i) (he : i ≠ .encode)
    (hd : i ≠ .decode) : coreTurn s = complete (bodyOf i s) := by
  simp only [coreTurn, tick, hb, hr, if_true]
  cases i with
  | encode => exact absurd rfl he
  | decode => exact absurd rfl hd
  | nop | frameEnc | frameDec | synth | classify | parity => rfl

theorem coreTurn_inv (hI : Inv s) : Inv (coreTurn s) := by
  cases hb : s.status.busy with
  | false => rwa [coreTurn_idle hb]
  | true =>
    obtain ⟨i, hr⟩ := Option.ne_none_iff_exists'.1 (hI.busy hb).1
    cases i with
    | encode =>
      rw [coreTurn_encode hb hr]
      exact txStep_inv hI hr
    | decode =>
      rw [coreTurn_decode hb hr]
      exact rxStep_inv hI hr
    | nop | frameEnc | frameDec | synth | classify | parity =>
      rw [coreTurn_unit hb hr (by simp) (by simp)]
      exact (bodyOf_dataOk hI.dataOk (hI.busy_status hb) _).inv_complete

/-- The state in which an idle core has accepted a command that it runs turn by turn (log 1). -/
def accepted (i : Instr) (s : State) : State := { accept s with running := some i }

/-- A check that raised has ended the command. -/
theorem endIfRaised_raise {e : ErrCode} (he : e ≠ .none) : endIfRaised (raise e s) = complete (raise e s) := by
  simp [endIfRaised, he]

theorem endIfRaised_of_none (h : s.status.err = .none) : endIfRaised s = s := by
  simp [endIfRaised, h]

theorem start_encode_inv (hI : Inv s) (hb : s.status.busy = false) : Inv (start .encode (accepted .encode s)) := by
  have hd : (accepted .encode s).DataOk := hI.dataOk.accept
  have hx := (hI.idle hb).1
  rw [start]
  rcases encodeWith_cases _ (accepted .encode s) with ⟨⟨hbaud, hf, htxb⟩, hfits, he⟩ | ⟨-, -, he⟩ | ⟨-, he⟩ <;> rw [he]
  · rw [endIfRaised_of_none rfl]
    refine State.DataOk.inv_of_running (i := .encode) hd rfl rfl (fun h => absurd hx h) (fun h => by cases h)
      (fun _ => ?_)
    have hconfig : (s.baudOk && s.fmtOk && s.txbFits) = true := by
      simp only [Bool.and_eq_true, txbFits_iff]
      exact ⟨⟨hbaud, hf⟩, htxb⟩
    have hbits := frameBits_bounds hf
    exact ⟨hconfig, hfits, Nat.zero_le _, fun _ => ⟨by simp; omega, samplesPerBit_pos hbaud⟩⟩
  · rw [endIfRaised_raise (by simp)]
    exact (State.DataOk.raise (s := latchSpb (setTxsCount 0 (accepted .encode s))) hd rfl _).inv_complete
  · rw [endIfRaised_raise (by simp)]
    exact (State.DataOk.raise (s := latchSpbOnInvalid (setTxsCount 0 (accepted .encode s))) hd rfl _).inv_complete

theorem start_decode_inv (hI : Inv s) : Inv (start .decode (accepted .decode s)) := by
  have hd : (setRxbCount 0 (accepted .decode s)).DataOk :=
    State.DataOk.setRxbCount (s := accepted .decode s) hI.dataOk.accept (Nat.zero_le _)
  rw [start]
  rcases decodeWith_cases _ (accepted .decode s) with ⟨⟨hbaud, hf, hrxs⟩, he⟩ | ⟨-, he⟩ <;> rw [he]
  · rw [endIfRaised_of_none rfl]
    refine State.DataOk.inv_of_running (i := .decode) hd rfl rfl (fun _ => rfl) (fun _ => ?_) (fun h => by cases h)
    have hconfig : (s.baudOk && s.fmtOk && s.rxsFits) = true := by
      simp only [Bool.and_eq_true, rxsFits_iff]
      exact ⟨⟨hbaud, hf⟩, hrxs⟩
    refine ⟨hconfig, ?_, ?_, ?_, ?_, ?_, ?_, ?_⟩ <;> simp [State.windowsLeft, RxState.inCharacter]
  · rw [endIfRaised_raise (by simp)]
    exact (State.DataOk.raise (s := latchSpbOnInvalid (setRxpos 0 (setRxbCount 0 (accepted .decode s)))) hd rfl
      _).inv_complete

theorem start_inv (hI : Inv s) (hb : s.status.busy = false) (i : Instr) : Inv (start i (accepted i s)) := by
  have hd : (accepted i s).DataOk := hI.dataOk.accept
  have hx := (hI.idle hb).1
  cases i with
  | encode => exact start_encode_inv hI hb
  | decode => exact start_decode_inv hI
  | nop | frameEnc | frameDec | synth | classify | parity =>
    exact hd.inv_of_running rfl rfl (fun h => absurd hx h) (fun h => by cases h) (fun h => by cases h)

theorem launch_inv (hI : Inv s) (w : Word) : Inv (launch w s) := by
  unfold launch
  split
  · exact hI
  · rename_i hb
    split
    · exact start_inv hI (by simpa using hb) _
    · exact illegalCommand_inv hI.dataOk

/-! ### The host's moves -/

theorem writeCmd_inv (hI : Inv s) {w : Word} (h : writeCmd w s = .next t) : Inv t := by
  unfold writeCmd at h
  split at h
  · cases h
    exact hI
  · split at h
    · rw [exec_eq_command] at h
      cases h
      exact command_bodyOf_inv hI.dataOk _
    · cases h
      exact illegalCommand_inv hI.dataOk

theorem writeReg_inv (hI : Inv s) (hb : s.status.busy = false) (r : Reg) (v : Word) : Inv (writeReg r v s) := by
  cases r with
  | format =>
    have hmask : v &&& formatMask &&& ~~~formatMask = 0#32 := by
      rw [BitVec.and_assoc]
      simp
    exact hI.of_idle_update hb { hI.dataOk with format := hmask } rfl rfl rfl
  | baud | arg | txbCount | txsCount | rxsCount | rxpos => exact hI.of_idle_update hb hI.dataOk rfl rfl rfl
  | cmd | status | result | xcount | spb | rxbCount | rxState => exact hI
  | paramSampleRate | paramFSpace | paramFMark | paramCap => exact hI

/-- What a bus write can do. -/
theorem busWrite_cases (o size : Nat) (v : Word) (s : State) :
    busWrite o size v s = .next s ∨ busWrite o size v s = writeCmd v s ∨
    (s.status.busy = false ∧ ∃ r, busWrite o size v s = .next (writeReg r v s)) := by
  cases hb : s.status.busy with
  | true => exact .inl (busWrite_busy o size v hb)
  | false =>
    by_cases hsize : size = 4
    · cases hreg : regAt o with
      | none => exact .inl (busWrite_ignored v s (.inr hreg))
      | some r =>
        by_cases hr : r = .cmd
        · exact .inr (.inl (by simp [busWrite, hsize, hreg, hr]))
        · exact .inr (.inr ⟨rfl, r, by rw [hsize, regAt_eq_some hreg]; exact busWrite_reg hr v hb⟩)
    · exact .inl (busWrite_ignored v s (.inl hsize))

theorem busWrite_inv (hI : Inv s) {o size : Nat} {v : Word} (h : busWrite o size v s = .next t) : Inv t := by
  rcases busWrite_cases o size v s with he | he | ⟨hb, r, he⟩ <;> rw [he] at h
  · cases h
    exact hI
  · exact writeCmd_inv hI h
  · cases h
    exact writeReg_inv hI hb r v

theorem whenOwned_next {o : Host.Outcome State Fault Refusal} (h : whenOwned s o = .next t) :
    s.status.busy = false ∧ o = .next t := by
  unfold whenOwned at h
  split at h
  · cases h
  · rename_i hb
    exact ⟨by simpa using hb, h⟩

theorem withBytes_next {b : ByteBuf} {i n : Nat} {u : State} (h : withBytes s b i n u = .next t) :
    (n = 0 ∨ i + n ≤ s.params.byteCapacity b) ∧ t = u := by
  unfold withBytes at h
  split at h
  · cases h
    exact ⟨‹_›, rfl⟩
  · cases h

theorem withSamples_next {b : SampleBuf} {i n : Nat} {o : Host.Outcome State Fault Refusal}
    (h : withSamples s b i n o = .next t) : (n = 0 ∨ i + n ≤ s.params.sampleCapacity b) ∧ o = .next t := by
  unfold withSamples at h
  split at h
  · exact ⟨‹_›, h⟩
  · cases h

theorem State.DataOk.copySamples (h : s.DataOk) (src : SampleBuf) (i : Nat) (dst : SampleBuf) (j n : Nat)
    (hn : n = 0 ∨ j + n ≤ s.params.sampleCapacity dst) : (copySamples src i dst j n s).DataOk :=
  h.writeSamples dst j _ (by rwa [readSampleBlock_length])

theorem hostReset_inv (hI : Inv s) : Inv (hostReset s) :=
  inv_of_idle (t := hostReset s) hI.params rfl rfl (Nat.zero_le _) (BitVec.zero_and ..) rfl (fun h => nomatch h) rfl rfl

/-- Reads, pauses and register accesses by their own lemmas; the moves on a buffer by the data they keep. -/
theorem hostMove_inv (hI : Inv s) {a : HostAct} (h : hostMove a s = .next t) : Inv t := by
  cases a with
  | write o size v => exact busWrite_inv hI h
  | read o size =>
    cases h
    exact hI.withRecords _ _ _
  | launch w =>
    cases h
    exact launch_inv hI w
  | waitDone =>
    have hreply : Inv { s with reply := .word s.status.toWord } := hI.withRecords _ _ _
    simp only [hostMove] at h
    split at h <;> cases h
    · exact hreply
    · exact (coreTurn_inv hreply).withRecords _ _ _
  | pause =>
    cases h
    exact coreTurn_inv hI
  | loadBytes b i vs =>
    obtain ⟨hb, h⟩ := whenOwned_next h
    obtain ⟨hn, rfl⟩ := withBytes_next h
    exact hI.of_idle_update hb (hI.dataOk.writeBytes b i vs hn) rfl rfl rfl
  | loadSamples b i vs =>
    obtain ⟨hb, h⟩ := whenOwned_next h
    obtain ⟨hn, h⟩ := withSamples_next h
    cases h
    exact hI.of_idle_update hb (hI.dataOk.writeSamples b i vs hn) rfl rfl rfl
  | readBytes b i n =>
    obtain ⟨-, h⟩ := whenOwned_next h
    obtain ⟨-, rfl⟩ := withBytes_next h
    exact hI.withRecords _ _ _
  | readSamples b i n =>
    obtain ⟨-, h⟩ := whenOwned_next h
    obtain ⟨-, h⟩ := withSamples_next h
    cases h
    exact hI.withRecords _ _ _
  | moveSamples src i dst j n =>
    obtain ⟨hb, h⟩ := whenOwned_next h
    obtain ⟨-, h⟩ := withSamples_next h
    obtain ⟨hn, h⟩ := withSamples_next h
    cases h
    exact hI.of_idle_update hb (hI.dataOk.copySamples src i dst j n hn) rfl rfl rfl
  | loopback =>
    obtain ⟨hb, h⟩ := whenOwned_next h
    obtain ⟨-, h⟩ := withSamples_next h
    obtain ⟨hn, h⟩ := withSamples_next h
    cases h
    exact hI.of_idle_update hb (hI.dataOk.copySamples .txs 0 .rxs 0 _ (by rwa [Nat.zero_add] at hn ⊢)) rfl rfl rfl
  | reset =>
    cases h
    exact hostReset_inv hI

/-- Settles O48: a step is a turn of the core or one move of the host. -/
theorem everyStepKeepsTheInvariant : Obligations.EveryStepKeepsTheInvariant := by
  intro s t hI h
  unfold step at h
  rw [if_pos hI.params] at h
  split at h
  · cases h
    exact coreTurn_inv hI
  · exact hostMove_inv (hI.withRecords _ _ _) h

end Sys2Proof.Machine
end

section
/-! PROOFS. The command word (30_encoding.md R69 to R71): what the decoder answers, and what a reserved word does. -/

namespace Sys2Proof.Machine

/-! ### The decoder and the encoder -/

variable {w : Word}

/-- Every row of the table compares the whole word, and with the encoding of its command. -/
theorem opTable_row : ∀ r ∈ opTable, r.mask = BitVec.allOnes 32 ∧ r.pat = encode r.instr := by decide

theorem encode_of_selects {r : OpRow} (hr : r ∈ opTable) (h : r.selects w = true) : encode r.instr = w := by
  obtain ⟨hmask, hpat⟩ := opTable_row r hr
  have hsel : w &&& r.mask = r.pat := of_decide_eq_true h
  rw [← hpat, ← hsel, hmask, BitVec.and_allOnes]

/-- The table's reading of the decoder: a row that the word selects gives its command. -/
theorem decode_of_row {pat mask : Word} {i : Instr} (hr : ⟨pat, mask, i⟩ ∈ opTable) (h : w &&& mask = pat) :
    decode w = .ok i := by
  have hw : encode i = w := encode_of_selects hr (decide_eq_true h)
  rw [← hw, decode_encode]

/-- The decoder finds a row that the word selects, or names the reason why there is none. -/
theorem decode_cases (w : Word) :
    (∃ i, decode w = .ok i ∧ encode i = w) ∨
    decode w = .error (if w.extractLsb' 4 28 = 0#28 then .reservedOp else .zeroFieldSet) := by
  unfold decode
  cases hfind : opTable.find? (fun r => r.selects w) with
  | some r =>
    have hsel : r.selects w = true := List.find?_some (p := fun r : OpRow => r.selects w) hfind
    exact .inl ⟨r.instr, rfl, encode_of_selects (List.mem_of_find?_eq_some hfind) hsel⟩
  | none => exact .inr (apply_ite Except.error ..).symm

/-- Settles O2: an answer of the decoder comes from a selected row, whose pattern is the command's encoding. -/
theorem decodeAndEncodeAgree : Obligations.DecodeAndEncodeAgree := by
  intro w i
  constructor
  · intro h
    rcases decode_cases w with ⟨j, hj, hw⟩ | herr
    · obtain rfl : j = i := Except.ok.inj (hj.symm.trans h)
      exact hw
    · rw [herr] at h
      cases h
  · rintro rfl
    exact decode_encode i

/-- Settles O1: each clause is one row of the table. -/
theorem commandWordsDecodeAsTheTableSays : Obligations.CommandWordsDecodeAsTheTableSays := by
  intro w
  refine ⟨?_, ?_, ?_, ?_, ?_, ?_, ?_, ?_⟩ <;> exact decode_of_row (by decide)

/-! ### Reserved words -/

theorem isCommand_encode (i : Instr) : Word.isCommand (encode i) = true := by cases i <;> rfl

theorem decode_reserved (h : Word.isCommand w = false) :
    decode w = .error (if w.extractLsb' 4 28 = 0#28 then .reservedOp else .zeroFieldSet) := by
  rcases decode_cases w with ⟨i, -, rfl⟩ | herr
  · rw [isCommand_encode] at h
    cases h
  · exact herr

/-- Settles O3: no encoding of a command is reserved. -/
theorem reservedWordsAreRejected : Obligations.ReservedWordsAreRejected := fun _ h => decode_reserved h

theorem writeCmd_reserved {s : State} (hb : s.status.busy = false) (h : Word.isCommand w = false) :
    writeCmd w s = .next (illegalCommand s) := by
  simp [writeCmd, hb, decode_reserved h]

theorem illegalCommand_ended (s : State) : Ended (illegalCommand s) .illCmd false := ⟨rfl, rfl, rfl⟩

/-- Settles O5: the step is `illegalCommand` on the state with the move taken off, and that writes only `STATUS` and
`RX_STATE` of what the host sees. -/
theorem reservedWordEndsWithIllcmd : Obligations.ReservedWordEndsWithIllcmd := by
  intro s rest w hp hb hh hw
  have hstep : step s = .next (illegalCommand { s with host := rest }) := by
    rw [step_host hp hh]
    exact writeCmd_reserved hb hw
  exact ⟨_, hstep, illegalCommand_ended _, rfl, rfl, rfl, rfl, ⟨rfl, rfl⟩, rfl, rfl, rfl, rfl, rfl, rfl, rfl, rfl, rfl,
    rfl⟩

end Sys2Proof.Machine
end

section
/-! PROOFS. The host's reads and copies of buffers (30_encoding.md R72, 20_memory.md R44 and R50). -/

namespace Sys2Proof.Machine

variable {s : State}

theorem readSample_writeReg (r : Reg) (v : Word) (b : SampleBuf) (a : Nat) :
    readSample (writeReg r v s) b a = readSample s b a := by
  rw [readSample_congr (writeReg_mem ..) (writeReg_epoch ..)]

theorem readByte_writeReg (r : Reg) (v : Word) (b : ByteBuf) (a : Nat) :
    readByte (writeReg r v s) b a = readByte s b a := by
  rw [readByte_congr (writeReg_mem ..) (writeReg_epoch ..)]

theorem readSample_copySamples_inside (src dst : SampleBuf) (i j : Nat) {k n : Nat} (h : k < n) :
    readSample (copySamples src i dst j n s) dst (j + k) = readSample s src (i + k) := by
  rw [readSample_copySamples, if_pos ⟨rfl, by omega, by omega⟩, Nat.add_sub_cancel_left]

theorem readSample_copySamples_outside (src : SampleBuf) (i : Nat) {b dst : SampleBuf} {j n a : Nat}
    (h : b ≠ dst ∨ a < j ∨ j + n ≤ a) : readSample (copySamples src i dst j n s) b a = readSample s b a := by
  rw [readSample_copySamples, if_neg]
  rintro ⟨rfl, hlo, hhi⟩
  rcases h with h | h
  · exact h rfl
  · omega

/-- Settles O52: each move is its update of the state with the move taken off, and the updates are read element by
element. -/
theorem bufferReadsAndCopies : Obligations.BufferReadsAndCopies := by
  intro s rest hp hb
  refine ⟨fun b i n hh hin => ?_, fun b i n hh hin => ?_, fun c i d j n hh hsrc hdst => ?_, fun hh hsrc hdst => ?_⟩
  · refine ⟨readByteBlock s b i n, ?_, readByteBlock_length .., readByteBlock_getElem s b i n⟩
    rw [step_buffer_idle hp hh hb fun _ => rfl]
    exact withBytes_inside hin _
  · refine ⟨readSampleBlock s b i n, ?_, readSampleBlock_length .., readSampleBlock_getElem s b i n⟩
    rw [step_buffer_idle hp hh hb fun _ => rfl]
    exact withSamples_inside hin _
  · have hstep : step s = .next (copySamples c i d j n { s with host := rest }) := by
      rw [step_buffer_idle hp hh hb fun _ => rfl]
      exact (withSamples_inside hsrc _).trans (withSamples_inside hdst _)
    refine ⟨_, hstep, fun k => readSample_copySamples_inside c d i j, fun b a => readSample_copySamples_outside c i,
      fun b a => readByte_copySamples .., fun r => ?_, rfl⟩
    rw [readReg_copySamples, readReg_host]
  · have hstep : step s = .next (writeReg .rxsCount s.txsCount
        (copySamples .txs 0 .rxs 0 s.txsCount.toNat { s with host := rest })) := by
      rw [step_buffer_idle hp hh hb fun _ => rfl]
      exact (withSamples_inside (by rwa [Nat.zero_add]) _).trans (withSamples_inside (by rwa [Nat.zero_add]) _)
    refine ⟨_, hstep, fun k hk => ?_, fun a ha => ?_, fun a => ?_, fun b a => ?_, rfl, fun r hr => ?_, rfl⟩
    · have hcopy := readSample_copySamples_inside (s := { s with host := rest }) .txs .rxs 0 0 hk
      rw [readSample_writeReg]
      rwa [Nat.zero_add] at hcopy
    · rw [readSample_writeReg]
      exact readSample_copySamples_outside .txs 0 (.inr (.inr (by rwa [Nat.zero_add])))
    · rw [readSample_writeReg]
      exact readSample_copySamples_outside .txs 0 (.inl (by decide))
    · rw [readByte_writeReg]
      exact readByte_copySamples ..
    · rw [readReg_writeReg_of_ne hr, readReg_copySamples, readReg_host]

end Sys2Proof.Machine
end

section
/-! PROOFS. What every command leaves to the host (10_state.md R11, R12, R15, R19 and R20), and `WAIT` after a command
(30_encoding.md R72). -/

namespace Sys2Proof.Machine

variable (s : State)

/-! ### What no command writes -/

/-- The receive pass leaves its result in RXB and in registers of the core. -/
theorem decodeFinish_hostSideKept (e : DecodeEnd) : HostSideKept s (decodeFinish e s) := by
  constructor <;> intros <;> rfl

theorem decodeRun_hostSideKept : HostSideKept s (decodeRun (latchSpb (setRxpos 0 (setRxbCount 0 s)))) :=
  { decodeFinish_hostSideKept (latchSpb (setRxpos 0 (setRxbCount 0 s))) _ with }

/-- Each outcome of a command writes only result registers and TXS or RXB, clause by clause. -/
theorem bodyOf_hostSideKept (i : Instr) : HostSideKept s (bodyOf i s) := by
  cases i with
  | nop => constructor <;> intros <;> rfl
  | encode =>
    rw [bodyOf, encodeBody]
    rcases encodeWith_cases encodeWrite s with ⟨-, -, he⟩ | ⟨-, -, he⟩ | ⟨-, he⟩ <;> rw [he] <;> constructor <;>
      simp [encodeWrite]
  | decode =>
    rw [bodyOf, decodeBody]
    rcases decodeWith_cases decodeRun s with ⟨-, he⟩ | ⟨-, he⟩ <;> rw [he]
    · exact decodeRun_hostSideKept s
    · constructor <;> simp
  | frameEnc =>
    rcases frameEncBody_cases s with ⟨-, -, he⟩ | ⟨-, -, he⟩ | ⟨-, he⟩ <;> rw [bodyOf, he] <;> constructor <;> simp
  | frameDec =>
    rcases frameDecBody_cases s with ⟨-, -, -, he⟩ | ⟨-, -, -, he⟩ | ⟨-, -, he⟩ | ⟨-, he⟩ <;> rw [bodyOf, he] <;>
      constructor <;> simp
  | synth =>
    rcases synthBody_cases s with ⟨-, -, he⟩ | ⟨-, -, he⟩ | ⟨-, he⟩ <;> rw [bodyOf, he] <;> constructor <;> simp
  | classify =>
    rcases classifyBody_cases s with ⟨-, -, he⟩ | ⟨-, -, he⟩ | ⟨-, he⟩ <;> rw [bodyOf, he] <;> constructor <;> simp
  | parity =>
    rcases parityBody_cases s with ⟨m, -, he⟩ | ⟨-, -, he⟩ <;> rw [bodyOf, he] <;> constructor <;> simp

theorem command_hostSideKept (i : Instr) : HostSideKept s (command (bodyOf i) s) :=
  { bodyOf_hostSideKept (accept s) i with }

theorem command_done (body : State → State) : (command body s).status.done = true := rfl

/-! ### `WAIT` -/

variable {s} {t : State} {rest : List HostAct}

theorem step_waitDone (hp : s.params.ok = true) (hh : s.host = .waitDone :: rest) (hd : s.status.done = true) :
    step s = .next { s with host := rest, reply := .word s.status.toWord } := by
  rw [step_host hp hh]
  simp [hostMove, hd]

theorem run_succ_of_step (n : Nat) (h : step s = .next t) :
    Host.Core.run Sys2Proof.core (n + 1) s = Host.Core.run Sys2Proof.core n t := by
  have hcore : Sys2Proof.core.step s = .next t := h
  simp only [Host.Core.run, hcore]

/-- Settles O13: the command keeps the host's list, so its end meets the `WAIT` with `DONE = 1`. -/
theorem waitGivesTheFinalStatus : Obligations.WaitGivesTheFinalStatus := by
  intro s i rest hp hb hh
  have hexec := exec_eq_command i { s with host := .waitDone :: rest }
  have hkept := command_hostSideKept { s with host := .waitDone :: rest } i
  have hdone := command_done { s with host := .waitDone :: rest } (bodyOf i)
  have hcmd := (step_writeCmd hp hb hh (decode_encode i)).trans hexec
  have hwait := step_waitDone (by rwa [hkept.params]) hkept.host hdone
  exact ⟨_, hexec, hdone, (run_succ_of_step 1 hcmd).trans (run_succ_of_step 0 hwait)⟩

end Sys2Proof.Machine
end

section
/-! PROOFS. The ToneUnit's two functions (40_tone_unit.md R82 to R90): the samples of a window, its crossings, and the
decision on them. -/

namespace Sys2Proof.Machine

/-! ### Synthesis -/

theorem toneSample_of_lt_half {p : Params} {bit : Bool} {i : Nat} (h : i < halfOf p (carrierOf p bit)) :
    toneSample p bit i = p.ampPos :=
  if_pos (Nat.lt_of_le_of_lt (Nat.mod_le ..) h)

theorem synth_of_lt_half {p : Params} {bit : Bool} {n : Nat} (h : n < halfOf p (carrierOf p bit)) :
    synth p bit n = List.replicate n p.ampPos := by
  refine List.eq_replicate_iff.2 ⟨synth_length .., fun x hx => ?_⟩
  obtain ⟨i, hi, rfl⟩ := List.mem_map.1 hx
  exact toneSample_of_lt_half (Nat.lt_trans (List.mem_range.1 hi) h)

/-- Settles O22: each sample is `toneSample` at its index. -/
theorem synthesizedWindow : Obligations.SynthesizedWindow :=
  ⟨synth_length, synth_getElem, fun _ _ => rfl, fun _ _ _ => synth_of_lt_half, by decide, by decide⟩

/-! ### Crossings -/

theorem map_getD_range (w : List Sample) : (List.range w.length).map (fun k => w[k]?.getD 0#16) = w := by
  apply List.ext_getElem <;> simp +contextual

theorem crossings_eq_countP (w : List Sample) : crossings w =
    (List.range (w.length - 1)).countP (fun k => decide (sign (w[k + 1]?.getD 0#16) ≠ sign (w[k]?.getD 0#16))) := by
  cases w with
  | nil => rfl
  | cons a w =>
    have h := crossings_map_range (fun k => (a :: w)[k]?.getD 0#16) w.length
    rw [← List.length_cons (a := a), map_getD_range] at h
    rw [h]
    simp only [ne_comm, List.length_cons, Nat.add_sub_cancel]

theorem crossingsAt_eq_of_samples_eq {s t : State} {pos : Nat} (hspb : t.samplesPerBit = s.samplesPerBit)
    (h : ∀ k, k < s.samplesPerBit → readSample t .rxs (pos + k) = readSample s .rxs (pos + k)) :
    crossingsAt t pos = crossingsAt s pos := by
  rw [crossingsAt, crossingsAt, rxWindow, rxWindow, readSampleBlock_eq, readSampleBlock_eq, hspb]
  exact congrArg crossings (List.map_congr_left fun k hk => h k (List.mem_range.1 hk))

theorem crossings_of_constant_sign {w : List Sample} {b : Bool} (h : ∀ x ∈ w, sign x = b) : crossings w = 0 := by
  induction w with
  | nil => rfl
  | cons a w ih =>
    cases w with
    | nil => rfl
    | cons c w =>
      have hsign : sign a = sign c := (h a (by simp)).trans (h c (by simp)).symm
      rw [crossings_cons_cons, if_pos hsign, ih fun x hx => h x (List.mem_cons_of_mem a hx)]

/-- Settles O24: the count is an induction over the window, sample by sample. -/
theorem crossingsCountSignChanges : Obligations.CrossingsCountSignChanges := by
  refine ⟨crossings_eq_countP, fun w hw => ?_, fun s t pos => crossingsAt_eq_of_samples_eq, by decide, by decide,
    by decide, by decide, fun _ => rfl, by decide, fun x n => ?_, by decide, by decide⟩
  · obtain ⟨a, u, rfl⟩ := List.exists_cons_of_ne_nil hw
    exact crossings_lt_length a u
  · exact crossings_of_constant_sign fun y hy => congrArg sign (List.eq_of_mem_replicate hy)

/-! ### The decision -/

theorem closerToMark_exact {p : Params} (h : p.estArith = .exact) (c n : Nat) : closerToMark p c n = true ↔
    ((c : Int) * p.sampleRate - 2 * n * p.fMark).natAbs < ((c : Int) * p.sampleRate - 2 * n * p.fSpace).natAbs := by
  simp [closerToMark, h]

theorem closerToMark_floor {p : Params} (h : p.estArith = .floor) (c n : Nat) : closerToMark p c n = true ↔
    ((c * p.sampleRate / (2 * n) : Nat) - (p.fMark : Int)).natAbs <
      ((c * p.sampleRate / (2 * n) : Nat) - (p.fSpace : Int)).natAbs := by
  simp [closerToMark, h]

/-- Multiplied by `2·n`, the distance of the estimate from a frequency is the integer that the decision compares
(40_tone_unit.md R86). -/
theorem abs_estimate_sub (c r f : Nat) {n : Nat} (hn : 0 < n) :
    |(c : ℚ) * r / (2 * n) - f| = (((c : Int) * r - 2 * n * f).natAbs : ℚ) / (2 * n) := by
  have hpos : (0 : ℚ) < 2 * n := by positivity
  rw [div_sub' hpos.ne', abs_div, abs_of_pos hpos, Nat.cast_natAbs]
  push_cast
  rfl

theorem floor_estimate (c r n : Nat) : ⌊(c : ℚ) * r / (2 * n)⌋ = ((c * r / (2 * n) : Nat) : ℤ) := by
  have h := Rat.floor_natCast_div_natCast (c * r) (2 * n)
  push_cast at h ⊢
  exact h

/-- Settles O25: the integers that the decision compares are the distances of the estimate multiplied by `2·n`. -/
theorem classifyPicksTheNearerTone : Obligations.ClassifyPicksTheNearerTone := by
  intro p w hw
  have hn : 0 < w.length := List.length_pos_of_ne_nil hw
  refine ⟨fun h => ?_, fun h => ?_⟩
  · rw [abs_estimate_sub _ _ _ hn, abs_estimate_sub _ _ _ hn, div_lt_div_iff_of_pos_right (by positivity), Nat.cast_lt]
    exact closerToMark_exact h ..
  · rw [floor_estimate, Int.abs_eq_natAbs, Int.abs_eq_natAbs, Nat.cast_lt]
    exact closerToMark_floor h ..

/-- A number is nearer to the greater of two others exactly when it lies above their midpoint. -/
theorem natAbs_sub_lt_natAbs_sub_iff {a lo hi : ℤ} (h : lo < hi) :
    (a - hi).natAbs < (a - lo).natAbs ↔ lo + hi < 2 * a := by
  omega

theorem closerToMark_iff_threshold {p : Params} (hf : p.fSpace < p.fMark) (he : p.estArith = .exact) (c : Nat) {n : Nat}
    (hn : 0 < n) : closerToMark p c n = true ↔ n * (p.fSpace + p.fMark) < c * p.sampleRate := by
  have hlt : (2 * n * p.fSpace : ℤ) < 2 * n * p.fMark := by gcongr
  rw [closerToMark_exact he, natAbs_sub_lt_natAbs_sub_iff hlt]
  zify
  constructor <;> intro h <;> linarith

/-- The threshold form (40_tone_unit.md R88); the empty window is on neither side. -/
theorem classify_iff_threshold {p : Params} (hf : p.fSpace < p.fMark) (he : p.estArith = .exact) (w : List Sample) :
    classify p w = true ↔ w.length * (p.fSpace + p.fMark) < crossings w * p.sampleRate := by
  cases w with
  | nil => simp [classify, closerToMark_exact he]
  | cons a w => exact closerToMark_iff_threshold hf he _ (Nat.succ_pos _)

theorem classify_designRates {p : Params} (h : DesignRates p) (w : List Sample) :
    classify p w = true ↔ 4 * w.length / 49 + 1 ≤ crossings w := by
  have hf : p.fSpace < p.fMark := by rw [h.fSpace, h.fMark]; decide
  rw [classify_iff_threshold hf h.estArith, h.sampleRate, h.fSpace, h.fMark]
  omega

/-- Settles O26: the estimate is nearer to the greater frequency exactly above the midpoint of the two. -/
theorem classifyThresholdForm : Obligations.ClassifyThresholdForm :=
  ⟨fun _ w hf he => classify_iff_threshold hf he w, fun _ w h => classify_designRates h w⟩

theorem not_zero_nearer_to_greater {lo hi : ℤ} (h0 : 0 ≤ lo) (h : lo ≤ hi) : ¬ (0 - hi).natAbs < (0 - lo).natAbs := by
  omega

/-- Without a crossing the estimate is 0, which is no nearer to the higher frequency. -/
theorem closerToMark_zero {p : Params} (hf : p.fSpace < p.fMark) (n : Nat) : closerToMark p 0 n = false := by
  rw [← Bool.not_eq_true]
  cases he : p.estArith with
  | exact =>
    rw [closerToMark_exact he, Nat.cast_zero, zero_mul]
    exact not_zero_nearer_to_greater (by positivity) (by gcongr)
  | floor =>
    rw [closerToMark_floor he, Nat.zero_mul, Nat.zero_div]
    exact not_zero_nearer_to_greater (by positivity) (by gcongr)

/-- Settles O27: such a window has no crossing. -/
theorem constantSignClassifiesAsZero : Obligations.ConstantSignClassifiesAsZero := by
  intro p w b hp h
  obtain ⟨⟨-, -, hf, -⟩, -⟩ := (params_ok_iff p).1 hp
  rw [classify, crossings_of_constant_sign h]
  exact closerToMark_zero hf _

/-! ### The core's own tones -/

theorem sign_toneSample {p : Params} (hp : p.ok = true) (bit : Bool) (i : Nat) : sign (toneSample p bit i) =
    decide (i % periodOf p (carrierOf p bit) < halfOf p (carrierOf p bit)) := by
  obtain ⟨-, ⟨hpos, hneg⟩, -⟩ := (params_ok_iff p).1 hp
  by_cases h : i % periodOf p (carrierOf p bit) < halfOf p (carrierOf p bit)
  · rw [toneSample, if_pos h, sign, decide_eq_true hpos.le, decide_eq_true h]
  · rw [toneSample, if_neg h, sign, decide_eq_false hneg.not_ge, decide_eq_false h]

/-- A cycle of two equal halves: the half that an index lies in is even or odd. -/
theorem mod_lt_half_iff (i : Nat) {h : Nat} (hh : 0 < h) : i % (2 * h) < h ↔ i / h % 2 = 0 := by
  rw [← Nat.mod_mul_left_div_self, Nat.div_eq_zero_iff_lt hh]

/-- The sign changes where a new half cycle begins. -/
theorem sign_toneSample_succ {p : Params} (hp : p.ok = true) {bit : Bool} {h : Nat} (hh : 0 < h)
    (hperiod : periodOf p (carrierOf p bit) = 2 * h) (i : Nat) :
    sign (toneSample p bit i) ≠ sign (toneSample p bit (i + 1)) ↔ h ∣ i + 1 := by
  have hhalf : halfOf p (carrierOf p bit) = h := by rw [halfOf, hperiod]; omega
  rw [sign_toneSample hp, sign_toneSample hp, hperiod, hhalf, ne_eq, decide_eq_decide, mod_lt_half_iff _ hh,
    mod_lt_half_iff _ hh, Nat.succ_div]
  by_cases hdvd : h ∣ i + 1
  · simp only [hdvd, if_true, iff_true]
    omega
  · simp only [hdvd, if_false, iff_false]
    omega

/-- One crossing for every half cycle that begins inside the window. -/
theorem crossings_synth {p : Params} (hp : p.ok = true) {bit : Bool} {h : Nat} (hh : 0 < h)
    (hperiod : periodOf p (carrierOf p bit) = 2 * h) (n : Nat) : crossings (synth p bit (n + 1)) = n / h := by
  rw [synth, crossings_map_range]
  induction n with
  | zero => simp
  | succ n ih =>
    rw [List.range_succ, List.countP_append, ih, Nat.succ_div, List.countP_singleton]
    simp only [sign_toneSample_succ hp hh hperiod, decide_eq_true_eq]

/-- The thresholds of R90 for a mark window: from 68 samples on the count is past it, below by cases. -/
theorem mark_crossings_reach_threshold_iff {n : Nat} (hn : 1 ≤ n) :
    4 * n / 49 + 1 ≤ (n - 1) / 9 ↔ deafLength n = false := by
  have hshort : ∀ m < 68, 1 ≤ m → (4 * m / 49 + 1 ≤ (m - 1) / 9 ↔ deafLength m = false) := by decide
  rcases Nat.lt_or_ge n 68 with hlt | hge
  · exact hshort n hlt hn
  · have hreach : 4 * n / 49 + 1 ≤ (n - 1) / 9 := by omega
    have hheard : deafLength n = false := by
      simp only [deafLength, Bool.or_eq_false_iff, Bool.and_eq_false_iff, decide_eq_false_iff_not]
      omega
    simp only [hreach, hheard]

/-- Settles O28: half a cycle is 18 samples of the space carrier and 9 of the mark carrier. -/
theorem ownTonesAtTheDesignRates : Obligations.OwnTonesAtTheDesignRates := by
  intro p n hp hd hn
  obtain ⟨m, rfl⟩ := Nat.exists_eq_add_of_le' hn
  have hspace : crossings (synth p false (m + 1)) = m / 18 :=
    crossings_synth hp (by decide) (by simp [periodOf, carrierOf, hd.sampleRate, hd.fSpace]) m
  have hmark : crossings (synth p true (m + 1)) = m / 9 :=
    crossings_synth hp (by decide) (by simp [periodOf, carrierOf, hd.sampleRate, hd.fMark]) m
  refine ⟨hspace, ?_, hmark, ?_⟩
  · rw [← Bool.not_eq_true, classify_designRates hd, hspace, synth_length]
    omega
  · rw [Bool.eq_iff_iff, classify_designRates hd, hmark, synth_length, Bool.not_eq_true']
    exact mark_crossings_reach_threshold_iff hn

end Sys2Proof.Machine
end

section
/-! PROOFS. The commands `SYNTH` and `CLASSIFY` (40_tone_unit.md R83 and R87), and the configuration checks
(40_tone_unit.md R80, 42_frame_codec.md R105). -/

namespace Sys2Proof.Machine

/-! ### The commands of the ToneUnit -/

theorem exec_hostSideKept {i : Instr} {s t : State} (h : exec i s = .next t) : HostSideKept s t := by
  rw [exec_eq_command] at h
  cases h
  exact command_hostSideKept s i

theorem writeSamples_transmitWritten (s : State) (i : Nat) (vs : List Sample) :
    TransmitWritten s (writeSamples .txs i vs s) i vs where
  inside k hk := readSample_writeSamples_inside .txs i k vs hk
  outside _ ha := readSample_writeSamples_outside (.inr ha)

theorem txsCount_fits {p : Params} (hp : p.ok = true) {n : Nat} (h : n ≤ p.txsCapacity) :
    (BitVec.ofNat 32 n).toNat = n := by
  obtain ⟨-, -, -, -, ⟨-, hcap⟩, -⟩ := (params_ok_iff p).1 hp
  exact toNat_ofNat_32 (by omega)

/-- Settles O23: each outcome of the command is the matter of one clause. -/
theorem synthCommand : Obligations.SynthCommand := by
  intro s hp
  have hspb := samplesPerBit_fits hp
  rcases exec_synth_cases s with ⟨hb, hfit, he⟩ | ⟨hb, hfull, he⟩ | ⟨hb, he⟩
  · refine ⟨fun _ _ => ?_, fun _ hfull => by omega, fun hbad => by simp [hb] at hbad⟩
    have hwritten := writeSamples_transmitWritten s s.txsCount.toNat (synth s.params s.argBit s.samplesPerBit)
    exact ⟨_, he, ⟨rfl, rfl, rfl⟩, hspb, txsCount_fits hp hfit, ⟨hwritten.inside, hwritten.outside⟩,
      exec_hostSideKept he, ⟨rfl, fun _ => rfl⟩, ⟨rfl, rfl⟩, rfl⟩
  · refine ⟨fun _ hfit => by omega, fun _ _ => ?_, fun hbad => by simp [hb] at hbad⟩
    exact ⟨_, he, ⟨rfl, rfl, rfl⟩, hspb, ⟨rfl, fun _ => rfl⟩, exec_hostSideKept he, ⟨rfl, fun _ => rfl⟩,
      ⟨rfl, rfl⟩, rfl⟩
  · refine ⟨fun hok => by simp [hb] at hok, fun hok => by simp [hb] at hok, fun _ => ?_⟩
    have hkept : (latchSpbOnInvalid s).spb = s.spb := by simp [hb]
    exact ⟨_, he, ⟨rfl, rfl, rfl⟩, hkept, ⟨rfl, fun _ => rfl⟩, exec_hostSideKept he, ⟨rfl, fun _ => rfl⟩,
      ⟨rfl, rfl⟩, rfl⟩

theorem bitByte_toNat (b : Bool) : (BitVec.zeroExtend 8 (BitVec.ofBool b)).toNat = b.toNat := by cases b <;> rfl

/-- Settles O30: each outcome of the command is the matter of one clause. -/
theorem classifyCommand : Obligations.ClassifyCommand := by
  intro s hp
  have hspb := samplesPerBit_fits hp
  have hvalid : s.baudOk = true ∧ s.rxsCount.toNat ≤ s.params.rxsCapacity →
      ¬ (s.baudOk = false ∨ s.rxsCount.toNat > s.params.rxsCapacity) := by
    rintro ⟨hb, hrxs⟩
    simp [hb, hrxs]
  rcases exec_classify_cases s with ⟨hok, hfit, he⟩ | ⟨hok, hpast, he⟩ | ⟨hbad, he⟩
  · refine ⟨fun _ _ _ => ?_, fun _ _ hpast => by omega, fun hbad => absurd hbad (hvalid hok)⟩
    exact ⟨_, he, ⟨rfl, rfl, rfl⟩, hspb, bitByte_toNat _, rfl, crossingsAt_fits hp _, exec_hostSideKept he,
      ⟨rfl, fun _ => rfl⟩, ⟨rfl, fun _ => rfl⟩, rfl⟩
  · refine ⟨fun _ _ hfit => by omega, fun _ _ _ => ?_, fun hbad => absurd hbad (hvalid hok)⟩
    exact ⟨_, he, ⟨rfl, rfl, rfl⟩, hspb, ⟨rfl, rfl⟩, exec_hostSideKept he, ⟨rfl, fun _ => rfl⟩,
      ⟨rfl, fun _ => rfl⟩, rfl⟩
  · refine ⟨fun hb hrxs => absurd ⟨hb, hrxs⟩ hbad, fun hb hrxs => absurd ⟨hb, hrxs⟩ hbad, fun _ => ?_⟩
    exact ⟨_, he, ⟨rfl, rfl, rfl⟩, spbAfterInvalid_of_latch hp rfl, ⟨rfl, rfl⟩, exec_hostSideKept he,
      ⟨rfl, fun _ => rfl⟩, ⟨rfl, fun _ => rfl⟩, rfl⟩

/-! ### The configuration checks -/

theorem parityCode_ne_reserved_iff : ∀ c : BitVec 2, c ≠ 3#2 ↔ c = 0#2 ∨ c = 1#2 ∨ c = 2#2 := by decide

theorem fmtOk_iff (s : State) : s.fmtOk = true ↔ (1 ≤ s.dataBits ∧ s.dataBits ≤ 8) ∧ 1 ≤ s.stopBits ∧
    (s.parityCode = 0#2 ∨ s.parityCode = 1#2 ∨ s.parityCode = 2#2) := by
  simp only [State.fmtOk, Bool.and_eq_true, decide_eq_true_eq, parityCode_ne_reserved_iff, and_assoc]

/-- Settles O31: each check is its range by definition, and the sizes follow from the ranges. -/
theorem configurationChecks : Obligations.ConfigurationChecks := fun s =>
  ⟨baudOk_iff s, fmtOk_iff s, fun h => ⟨samplesPerBit_pos h, samplesPerBit_eq_div h⟩, frameBits_bounds⟩

end Sys2Proof.Machine
end

section
/-! PROOFS. The ParityUnit: the parity bit (41_parity_unit.md R100) and the command `PARITY` (R101). -/

namespace Sys2Proof.Machine

/-! ### The parity bit -/

theorem toNat_decide_eq_one {n : Nat} (hn : n < 2) : (decide (n = 1)).toNat = n := by
  obtain rfl | rfl : n = 0 ∨ n = 1 := by omega
  · rfl
  · rfl

theorem computeParity_even_toNat (b : Byte) : (computeParity b .even).toNat = popcount b % 2 :=
  toNat_decide_eq_one (Nat.mod_lt _ Nat.two_pos)

theorem computeParity_odd_toNat (b : Byte) : (computeParity b .odd).toNat = 1 - popcount b % 2 :=
  toNat_decide_eq_one (by omega)

theorem popcount_add_even_parity (b : Byte) : (popcount b + (computeParity b .even).toNat) % 2 = 0 := by
  rw [computeParity_even_toNat]
  omega

theorem popcount_add_odd_parity (b : Byte) : (popcount b + (computeParity b .odd).toNat) % 2 = 1 := by
  rw [computeParity_odd_toNat]
  omega

/-- Settles O20: the formulas fix the totals, and the bits of the rule's own bytes are computed. -/
theorem parityBitMakesTheTotalEvenOrOdd : Obligations.ParityBitMakesTheTotalEvenOrOdd :=
  ⟨computeParity_even_toNat, computeParity_odd_toNat, popcount_add_even_parity, popcount_add_odd_parity, by decide⟩

/-! ### The command PARITY -/

theorem parityOf_eq_some_iff (c : BitVec 2) (m : ParityMode) :
    parityOf c = some m ↔ (c = 1#2 ∧ m = .even) ∨ (c = 2#2 ∧ m = .odd) := by
  revert c
  cases m <;> decide

/-- Settles O21: the mode is a function of the parity code, so each outcome of the command is the matter of one
clause. -/
theorem parityCommand : Obligations.ParityCommand := by
  intro s
  rcases exec_parity_cases s with ⟨m, hm, he⟩ | ⟨heven, hodd, he⟩
  · have hmode := (parityOf_eq_some_iff _ _).2 hm
    refine ⟨fun m' hm' => ?_, fun hnone => ?_⟩
    · obtain rfl : m = m' := Option.some.inj (hmode.symm.trans ((parityOf_eq_some_iff _ _).2 hm'))
      exact ⟨_, he, ⟨rfl, rfl, rfl⟩, bitByte_toNat _, rfl, rfl, exec_hostSideKept he, ⟨rfl, fun _ => rfl⟩,
        ⟨rfl, fun _ => rfl⟩, rfl, rfl⟩
    · rcases hnone with h | h <;> simp [h, parityOf] at hmode
  · refine ⟨fun m hm => ?_, fun _ => ?_⟩
    · rcases hm with ⟨h, -⟩ | ⟨h, -⟩
      · exact absurd h heven
      · exact absurd h hodd
    · exact ⟨_, he, ⟨rfl, rfl, rfl⟩, ⟨rfl, rfl⟩, exec_hostSideKept he, ⟨rfl, fun _ => rfl⟩,
        ⟨rfl, fun _ => rfl⟩, rfl, rfl⟩

end Sys2Proof.Machine
end

section
/-! PROOFS. The FrameCodec: the windows of a character (42_frame_codec.md R106), and the commands `FRAME_ENC` and
`FRAME_DEC` (R108 and R111). -/

namespace Sys2Proof.Machine

/-! ### The windows of a character -/

section Windows

variable {s : State} (b : Byte)

theorem charBits_start : (charBits s b)[0]? = some false := rfl

theorem charBits_data {w : Nat} (h1 : 1 ≤ w) (hw : w ≤ s.dataBits) : (charBits s b)[w]? = some (b.getLsbD (w - 1)) := by
  obtain ⟨k, rfl⟩ := Nat.exists_eq_add_of_le' h1
  simp [charBits, List.getElem?_append, Nat.lt_of_succ_le hw]

theorem charBits_parity {m : ParityMode} (hm : s.parityMode = some m) :
    (charBits s b)[s.dataBits + 1]? = some (computeParity b m) := by
  simp [charBits, parityBits, hm]

theorem charBits_stop (hf : s.fmtOk = true) {w : Nat} (hw : s.dataBits + s.parityFlag + 1 ≤ w) (hlt : w < s.frameBits) :
    (charBits s b)[w]? = some true := by
  have hpre : ([false] ++ (List.range s.dataBits).map (fun k => b.getLsbD k) ++ parityBits s b).length =
      s.dataBits + s.parityFlag + 1 := by
    simp [parityBits_length s b (fmtOk_parityCode hf)]
  have hstop : w - (s.dataBits + s.parityFlag + 1) < s.stopBits := by
    unfold State.frameBits at hlt
    omega
  rw [charBits, List.getElem?_append_right (by rwa [hpre]), hpre, List.getElem?_replicate_of_lt hstop]

end Windows

/-- Settles O32: the character is start, data, parity and stop bits in a row, each part by its own index. -/
theorem characterWindows : Obligations.CharacterWindows := by
  intro s b hf
  have hmode (m : ParityMode) (h : (s.parityCode = 1#2 ∧ m = .even) ∨ (s.parityCode = 2#2 ∧ m = .odd)) :=
    charBits_parity b ((parityOf_eq_some_iff s.parityCode m).2 h)
  exact ⟨charBits_length hf b, charBits_start b, fun _ => charBits_data b, fun h => hmode .even (.inl ⟨h, rfl⟩),
    fun h => hmode .odd (.inr ⟨h, rfl⟩), fun _ => charBits_stop b hf⟩

/-! ### The commands of the FrameCodec -/

/-- Settles O34: each outcome of the command is the matter of one clause. -/
theorem frameEncCommand : Obligations.FrameEncCommand := by
  intro s hp
  have hspb := samplesPerBit_fits hp
  have hvalid : s.baudOk = true ∧ s.fmtOk = true → ¬ (s.baudOk = false ∨ s.fmtOk = false) := by
    rintro ⟨hb, hf⟩
    simp [hb, hf]
  rcases exec_frameEnc_cases s with ⟨hok, hfit, he⟩ | ⟨hok, hfull, he⟩ | ⟨hbad, he⟩
  · refine ⟨fun _ _ _ => ?_, fun _ _ hfull => by omega, fun hbad => absurd hbad (hvalid hok)⟩
    have hwritten := writeSamples_transmitWritten s s.txsCount.toNat (frameEnc s s.argByte)
    exact ⟨_, he, ⟨rfl, rfl, rfl⟩, hspb, txsCount_fits hp hfit, ⟨hwritten.inside, hwritten.outside⟩,
      exec_hostSideKept he, ⟨rfl, fun _ => rfl⟩, ⟨rfl, rfl⟩, rfl⟩
  · refine ⟨fun _ _ hfit => by omega, fun _ _ _ => ?_, fun hbad => absurd hbad (hvalid hok)⟩
    exact ⟨_, he, ⟨rfl, rfl, rfl⟩, hspb, ⟨rfl, fun _ => rfl⟩, exec_hostSideKept he, ⟨rfl, fun _ => rfl⟩,
      ⟨rfl, rfl⟩, rfl⟩
  · refine ⟨fun hb hf => absurd hbad (hvalid ⟨hb, hf⟩), fun hb hf => absurd hbad (hvalid ⟨hb, hf⟩), fun _ => ?_⟩
    exact ⟨_, he, ⟨rfl, rfl, rfl⟩, spbAfterInvalid_of_latch hp rfl, ⟨rfl, fun _ => rfl⟩, exec_hostSideKept he,
      ⟨rfl, fun _ => rfl⟩, ⟨rfl, rfl⟩, rfl⟩

/-- A position inside the valid part of RXS fits `RXPOS`. -/
theorem rxpos_fits {s : State} {pos : Nat} (h : pos ≤ s.rxsCount.toNat) : (BitVec.ofNat 32 pos).toNat = pos :=
  toNat_ofNat_32 (Nat.lt_of_le_of_lt h s.rxsCount.isLt)

/-- Settles O35: each outcome of the command is the matter of one clause. -/
theorem frameDecCommand : Obligations.FrameDecCommand := by
  intro s hp
  have hspb := samplesPerBit_fits hp
  have hvalid : s.baudOk = true ∧ s.fmtOk = true ∧ s.rxsCount.toNat ≤ s.params.rxsCapacity →
      ¬ (s.baudOk = false ∨ s.fmtOk = false ∨ s.rxsCount.toNat > s.params.rxsCapacity) := by
    rintro ⟨hb, hf, hrxs⟩
    simp [hb, hf, hrxs]
  rcases exec_frameDec_cases s with ⟨hok, hfit, hstart, he⟩ | ⟨hok, hfit, hstart, he⟩ | ⟨hok, hpast, he⟩ | ⟨hbad, he⟩
  · refine ⟨fun _ _ _ _ _ => ?_, fun _ _ _ _ hmark => by simp [hstart] at hmark, fun _ _ _ hpast => by omega,
      fun hbad => absurd hbad (hvalid hok)⟩
    exact ⟨_, he, ⟨rfl, rfl, rfl⟩, hspb, rfl, fun _ => frameByte_getLsbD s s.rxpos.toNat, rxpos_fits hfit,
      crossingsAt_fits hp _, exec_hostSideKept he, ⟨rfl, fun _ => rfl⟩, ⟨rfl, fun _ => rfl⟩⟩
  · refine ⟨fun _ _ _ _ hspace => by simp [hstart] at hspace, fun _ _ _ _ _ => ?_, fun _ _ _ hpast => by omega,
      fun hbad => absurd hbad (hvalid hok)⟩
    exact ⟨_, he, ⟨rfl, rfl, rfl⟩, hspb, rfl, rfl, crossingsAt_fits hp _, exec_hostSideKept he,
      ⟨rfl, fun _ => rfl⟩, ⟨rfl, fun _ => rfl⟩⟩
  · refine ⟨fun _ _ _ hfit => by omega, fun _ _ _ hfit => by omega, fun _ _ _ _ => ?_,
      fun hbad => absurd hbad (hvalid hok)⟩
    exact ⟨_, he, ⟨rfl, rfl, rfl⟩, hspb, ⟨rfl, rfl⟩, rfl, exec_hostSideKept he, ⟨rfl, fun _ => rfl⟩,
      ⟨rfl, fun _ => rfl⟩⟩
  · refine ⟨fun hb hf hrxs => absurd ⟨hb, hf, hrxs⟩ hbad, fun hb hf hrxs => absurd ⟨hb, hf, hrxs⟩ hbad,
      fun hb hf hrxs => absurd ⟨hb, hf, hrxs⟩ hbad, fun _ => ?_⟩
    exact ⟨_, he, ⟨rfl, rfl, rfl⟩, spbAfterInvalid_of_latch hp rfl, ⟨rfl, rfl⟩, rfl, exec_hostSideKept he,
      ⟨rfl, fun _ => rfl⟩, ⟨rfl, fun _ => rfl⟩⟩

end Sys2Proof.Machine
end

section
/-! PROOFS. The commands of the ModemStream as atomic transitions (43_modem_stream.md R120 to R129): what each of them
leaves, the samples of the transmitted stream, and the loop of the receive pass. -/

namespace Sys2Proof.Machine

/-! ### Every command -/

theorem complete_ended (s : State) : Ended (complete s) s.status.err s.status.trunc := ⟨rfl, rfl, rfl⟩

/-- Settles O14: every command is its body between acceptance and completion. -/
theorem everyCommandCompletesAndKeepsTheHostSide : Obligations.EveryCommandCompletesAndKeepsTheHostSide :=
  fun i s => ⟨_, _, _, exec_eq_command i s, complete_ended _, command_hostSideKept s i⟩

theorem toWord_done : Status.toWord ⟨false, true, false, .none⟩ = 0x02#32 := by decide

/-- Settles O19: `NOP` is acceptance and completion, which write only `STATUS` and `RX_STATE` of what the host sees. -/
theorem nopOnlyClearsStatus : Obligations.NopOnlyClearsStatus := fun s =>
  ⟨_, exec_nop s, complete_ended _, toWord_done, exec_hostSideKept (exec_nop s), ⟨rfl, rfl⟩, ⟨rfl, fun _ => rfl⟩,
    ⟨rfl, fun _ => rfl⟩, rfl, rfl⟩

/-! ### The transmitted stream -/

/-- Element `x` of equally long blocks in a row is element `x mod n` of block `floor(x / n)`. -/
theorem flatMap_getElem?_const {α β : Type} {f : α → List β} {n : Nat} (hn : 0 < n) (hf : ∀ a, (f a).length = n)
    (l : List α) (x : Nat) : (l.flatMap f)[x]? = l[x / n]?.bind fun a => (f a)[x % n]? := by
  induction l generalizing x with
  | nil => simp
  | cons a l ih =>
    rw [List.flatMap_cons]
    rcases Nat.lt_or_ge x n with hlt | hge
    · rw [List.getElem?_append_left (by rwa [hf]), Nat.div_eq_of_lt hlt, Nat.mod_eq_of_lt hlt]
      rfl
    · rw [List.getElem?_append_right (by rwa [hf]), hf, ih, Nat.div_eq_sub_div hn hge, ← Nat.mod_eq_sub_mod hge,
        List.getElem?_cons_succ]

/-- Sample `x` of a character is a sample of the window of bit `floor(x / spb)` (42_frame_codec.md R107). -/
theorem frameEnc_getElem? {s : State} (hb : s.baudOk = true) (b : Byte) (x : Nat) : (frameEnc s b)[x]? =
    (charBits s b)[x / s.samplesPerBit]?.bind fun bit => some (toneSample s.params bit (x % s.samplesPerBit)) := by
  have hspb := samplesPerBit_pos hb
  rw [frameEnc, flatMap_getElem?_const hspb fun bit => synth_length ..]
  simp [synth, Nat.mod_lt x hspb]

theorem encodeStream_getElem? {s : State} (hb : s.baudOk = true) (hf : s.fmtOk = true) (bs : List Byte) (x : Nat) :
    (encodeStream s bs)[x]? = bs[x / s.charLen]?.bind fun b =>
      (charBits s b)[x % s.charLen / s.samplesPerBit]?.bind fun bit =>
        some (toneSample s.params bit (x % s.samplesPerBit)) := by
  have hspb : s.samplesPerBit ∣ s.charLen := Dvd.intro_left _ rfl
  rw [encodeStream, flatMap_getElem?_const (charLen_pos hb hf) (frameEnc_length hf)]
  simp only [frameEnc_getElem? hb, Nat.mod_mod_of_dvd _ hspb]

theorem mul_add_div_mod (q : Nat) {n r : Nat} (hr : r < n) : (q * n + r) / n = q ∧ (q * n + r) % n = r :=
  (Nat.div_mod_unique (by omega)).2 ⟨by rw [Nat.mul_comm, Nat.add_comm], hr⟩

/-- Sample `k` of window `w` of character `j` (43_modem_stream.md R134). -/
theorem encodeStream_getElem?_window {s : State} (hb : s.baudOk = true) (hf : s.fmtOk = true) {bs : List Byte}
    {j w k : Nat} {b : Byte} {bit : Bool} (hj : bs[j]? = some b) (hw : (charBits s b)[w]? = some bit)
    (hk : k < s.samplesPerBit) :
    (encodeStream s bs)[j * s.charLen + w * s.samplesPerBit + k]? = some (toneSample s.params bit k) := by
  have hspb : s.samplesPerBit ∣ s.charLen := Dvd.intro_left _ rfl
  have hwindow := window_in_character s (charBits_length hf b ▸ (List.getElem?_eq_some_iff.1 hw).1)
  obtain ⟨hchar, hrest⟩ := mul_add_div_mod j (by omega : w * s.samplesPerBit + k < s.charLen)
  obtain ⟨hbit, hindex⟩ := mul_add_div_mod w hk
  rw [encodeStream_getElem? hb hf, Nat.add_assoc, ← Nat.mod_mod_of_dvd _ hspb, hchar, hrest, hbit, hindex, hj,
    Option.bind_some, hw, Option.bind_some]

/-- Every window of a character has its bit. -/
theorem charBits_getElem?_of_lt {s : State} (hf : s.fmtOk = true) (b : Byte) {x : Nat} (hx : x < s.charLen) :
    ∃ bit, (charBits s b)[x / s.samplesPerBit]? = some bit := by
  have hw : x / s.samplesPerBit < s.frameBits := Nat.div_lt_of_lt_mul (by rwa [Nat.mul_comm])
  exact ⟨_, List.getElem?_eq_getElem (by rwa [charBits_length hf])⟩

/-- Settles O33: the stream is characters of `L` samples in a row, and a character windows of `spb` samples. -/
theorem transmittedSample : Obligations.TransmittedSample := by
  intro s bs x hb hf
  refine ⟨encodeStream_length hf bs, fun hx => ?_⟩
  have hbyte : bs[x / s.charLen]? = some _ :=
    List.getElem?_eq_getElem (Nat.div_lt_of_lt_mul (by rwa [Nat.mul_comm]))
  obtain ⟨bit, hbit⟩ := charBits_getElem?_of_lt hf (bs[x / s.charLen]'_) (Nat.mod_lt x (charLen_pos hb hf))
  refine ⟨_, bit, hbyte, hbit, ?_⟩
  rw [encodeStream_getElem? hb hf, hbyte, Option.bind_some, hbit, Option.bind_some]

/-- Settles O36: each outcome of the command is the matter of one clause. -/
theorem encodeCommand : Obligations.EncodeCommand := by
  intro s hp
  have hspb := samplesPerBit_fits hp
  have hvalid : s.baudOk = true ∧ s.fmtOk = true ∧ s.txbCount.toNat ≠ 0 ∧ s.txbCount.toNat ≤ s.params.txbCapacity →
      ¬ (s.baudOk = false ∨ s.fmtOk = false ∨ s.txbCount.toNat = 0 ∨ s.txbCount.toNat > s.params.txbCapacity) := by
    rintro ⟨hb, hf, hne, hle⟩
    simp [hb, hf, hne, hle]
  rcases exec_encode_cases s with ⟨hok, hfit, he⟩ | ⟨hok, hfull, he⟩ | ⟨hbad, he⟩
  · refine ⟨fun _ _ _ _ _ => ?_, fun _ _ _ _ hfull => absurd hfit (Nat.not_le_of_gt hfull),
      fun hbad => absurd hbad (hvalid hok)⟩
    have hwritten := writeSamples_transmitWritten s 0 (encodeStream s (payload s))
    exact ⟨_, he, ⟨rfl, rfl, rfl⟩, hspb, txsCount_fits hp hfit, ⟨hwritten.inside, hwritten.outside⟩, payload_length s,
      payload_getElem s, exec_hostSideKept he, ⟨rfl, fun a => readByte_writeSamples s .txs .rxb 0 a _⟩, ⟨rfl, rfl⟩, rfl⟩
  · refine ⟨fun _ _ _ _ hfit => absurd hfit (Nat.not_le_of_gt hfull), fun _ _ _ _ _ => ?_,
      fun hbad => absurd hbad (hvalid hok)⟩
    exact ⟨_, he, ⟨rfl, rfl, rfl⟩, hspb, rfl, fun _ => rfl, exec_hostSideKept he, ⟨rfl, fun _ => rfl⟩, ⟨rfl, rfl⟩,
      rfl⟩
  · refine ⟨fun hb hf hne hle => absurd ⟨hb, hf, hne, hle⟩ hbad, fun hb hf hne hle => absurd ⟨hb, hf, hne, hle⟩ hbad,
      fun _ => ?_⟩
    exact ⟨_, he, ⟨rfl, rfl, rfl⟩, spbAfterInvalid_of_latch hp rfl, rfl, fun _ => rfl, exec_hostSideKept he,
      ⟨rfl, fun _ => rfl⟩, ⟨rfl, rfl⟩, rfl⟩

/-! ### The receive pass -/

/-- Settles O37: one iteration is `decodeLoop_succ`, and the iterations after it have fuel enough with one more. -/
theorem decodeLoopFollowsTheRule : Obligations.DecodeLoopFollowsTheRule := by
  intro s pos fuel out xc hL hpos hfuel
  obtain ⟨n, rfl⟩ : ∃ n, fuel = n + 1 := Nat.exists_eq_add_of_le' (by omega)
  have hmore : ∀ (p : Nat) (o : List Byte) (x : Word), pos + 1 ≤ p →
      decodeLoop s n p o x = decodeLoop s (n + 1) p o x :=
    fun p o x hp => decodeLoop_fuel hL n (n + 1) p o x (by omega) (by omega)
  refine ⟨fun hend => ?_, fun hin hfull => ?_, fun hin hroom hc => ?_, fun hin hroom hc => ?_⟩
  · rw [decodeLoop_succ, if_pos hend]
  · rw [decodeLoop_succ, if_neg (by omega), if_pos hfull]
  · rw [decodeLoop_succ, if_neg (by omega), if_neg hroom, if_pos hc, hmore _ _ _ (by omega)]
  · refine ⟨BitVec.ofNat 8 (frameByte s pos), fun k => frameByte_getLsbD s pos, ?_⟩
    rw [decodeLoop_succ, if_neg (by omega), if_neg hroom, if_neg (by simp [hc]), hmore _ _ _ (by omega)]
    rfl

theorem decodeStream_of_too_short {s : State} (h : s.rxsCount.toNat < s.charLen) :
    decodeStream s = ⟨[], 0, false, s.xcount⟩ := by
  rw [decodeStream, decodeLoop_succ, if_pos (by omega)]

theorem cap_fits {p : Params} (hp : p.ok = true) {n : Nat} (h : n ≤ p.cap) : (BitVec.ofNat 32 n).toNat = n :=
  toNat_ofNat_32 (Nat.lt_of_le_of_lt h (params_fit hp).2.2.2)

theorem decodeLeaves_receiveWritten (s : State) (e : DecodeEnd) : ReceiveWritten s (decodeLeaves s e) e.out where
  inside k hk := by simp [hk]
  outside a ha := by simp [ha]

theorem decodeLeaves_transmitKept (s : State) (e : DecodeEnd) : TransmitKept s (decodeLeaves s e) :=
  ⟨decodeLeaves_txsCount s e, fun a => readSample_decodeLeaves s e .txs a⟩

theorem exec_decode_checked {s : State} (hb : s.baudOk = true) (hf : s.fmtOk = true)
    (hrxs : s.rxsCount.toNat ≤ s.params.rxsCapacity) :
    exec .decode s = .next (decodeLeaves s (decodeStream s)) := by
  rcases exec_decode_cases s with ⟨-, he⟩ | ⟨hbad, -⟩
  · exact he
  · exact absurd ⟨hb, hf, hrxs⟩ hbad

/-- The two registers of the result hold the loop's numbers, which are in range. -/
theorem decodeLeaves_counts {s : State} (hp : s.params.ok = true) (hb : s.baudOk = true) (hf : s.fmtOk = true) :
    (decodeLeaves s (decodeStream s)).rxbCount.toNat = (decodeStream s).out.length ∧
      (decodeLeaves s (decodeStream s)).rxpos.toNat = (decodeStream s).pos := by
  have hends := decodeStream_ends (charLen_pos hb hf)
  rw [decodeLeaves_rxbCount, decodeLeaves_rxpos]
  exact ⟨cap_fits hp hends.cap, rxpos_fits hends.pos⟩

/-- Settles O38: each outcome of the command is the matter of one clause. -/
theorem decodeCommand : Obligations.DecodeCommand := by
  intro s hp
  refine ⟨fun hb hf hrxs => ?_, fun hbad => ?_⟩
  · have he := exec_decode_checked hb hf hrxs
    obtain ⟨hcount, hpos⟩ := decodeLeaves_counts hp hb hf
    refine ⟨_, he, ⟨decodeLeaves_status .., decodeLeaves_rxState .., decodeLeaves_running ..⟩, ?_, hcount, hpos,
      decodeLeaves_xcount .., decodeLeaves_receiveWritten .., fun hshort => ?_, decodeLeaves_result ..,
      exec_hostSideKept he, decodeLeaves_transmitKept ..⟩
    · rw [decodeLeaves_spb, samplesPerBit_fits hp]
    · simp [decodeStream_of_too_short hshort]
  · rcases exec_decode_cases s with ⟨⟨hb, hf, hrxs⟩, -⟩ | ⟨-, he⟩
    · simp [hb, hf, Nat.not_lt_of_le hrxs] at hbad
    · exact ⟨_, he, ⟨rfl, rfl, rfl⟩, spbAfterInvalid_of_latch hp rfl, rfl, rfl, fun _ => rfl, ⟨rfl, rfl⟩,
        exec_hostSideKept he, ⟨rfl, fun _ => rfl⟩⟩

/-- Settles O39: where the loop ends, read in the registers it leaves. -/
theorem decodeBoundsAndTruncation : Obligations.DecodeBoundsAndTruncation := by
  intro s t hp he hok
  rcases exec_decode_cases s with ⟨⟨hb, hf, -⟩, he'⟩ | ⟨-, he'⟩ <;>
    obtain rfl := Host.Outcome.next.inj (he'.symm.trans he)
  · obtain ⟨hpos, hcap, hused, htruncated, hexhausted⟩ := decodeStream_ends (charLen_pos hb hf)
    obtain ⟨hcountEq, hposEq⟩ := decodeLeaves_counts hp hb hf
    rw [hcountEq, hposEq, decodeLeaves_status]
    refine ⟨hcap, hpos, hused, ⟨htruncated, fun ⟨_, hin⟩ => ?_⟩, hexhausted⟩
    by_contra hnot
    exact absurd hin (Nat.not_le_of_gt (hexhausted (by simpa using hnot)))
  · simp at hok

end Sys2Proof.Machine
end

section
/-! PROOFS. Characters back to back in RXS: the receive pass finds each of them (43_modem_stream.md R124), which settles
what silence decodes to (R130) and the round trip through the loop-back (R131). -/

namespace Sys2Proof.Machine

variable {s t : State}

/-! ### Characters back to back -/

/-- At every multiple of `L` inside the valid part of RXS stands a character whose start window is heard as 0 and whose
data windows are heard as the byte `f j`. -/
def AlignedCharacters (s : State) (f : Nat → Byte) : Prop :=
  ∀ j, (j + 1) * s.charLen ≤ s.rxsCount.toNat →
    classifyAt s (j * s.charLen) = false ∧ BitVec.ofNat 8 (frameByte s (j * s.charLen)) = f j

/-- The whole characters in the valid part of RXS, up to the capacity of RXB. -/
def wholeCharacters (s : State) : Nat := min (s.rxsCount.toNat / s.charLen) s.params.cap

/-- The loop takes the characters one by one; the number of those it has taken gives its position and its output. -/
theorem decodeLoop_aligned {f : Nat → Byte} (hL : 1 ≤ s.charLen) (h : AlignedCharacters s f) (n j : Nat) (xc : Word)
    (hj : j ≤ wholeCharacters s) (hn : s.rxsCount.toNat + 1 ≤ j * s.charLen + n) :
    ∃ xc', decodeLoop s n (j * s.charLen) ((List.range j).map f) xc =
      ⟨(List.range (wholeCharacters s)).map f, wholeCharacters s * s.charLen,
        decide (s.params.cap < s.rxsCount.toNat / s.charLen), xc'⟩ := by
  obtain ⟨hdiv, hcap⟩ := Nat.le_min.1 hj
  have hnext : j * s.charLen + s.charLen ≤ s.rxsCount.toNat ↔ j + 1 ≤ s.rxsCount.toNat / s.charLen := by
    rw [Nat.le_div_iff_mul_le hL, Nat.add_one_mul]
  induction n generalizing j xc with
  | zero =>
    have := (Nat.le_div_iff_mul_le hL).1 hdiv
    omega
  | succ n ih =>
    rw [decodeLoop_succ, List.length_map, List.length_range]
    by_cases hend : j * s.charLen + s.charLen > s.rxsCount.toNat
    · have hlast : s.rxsCount.toNat / s.charLen = j := by omega
      have hwhole : wholeCharacters s = j := by rw [wholeCharacters, hlast, Nat.min_eq_left hcap]
      rw [if_pos hend, hwhole, hlast, decide_eq_false (by omega)]
      exact ⟨xc, rfl⟩
    · rw [if_neg hend]
      by_cases hfull : j = s.params.cap
      · have hwhole : wholeCharacters s = j := by rw [wholeCharacters, ← hfull, Nat.min_eq_right hdiv]
        rw [if_pos hfull, hwhole, ← hfull, decide_eq_true (by omega)]
        exact ⟨xc, rfl⟩
      · obtain ⟨hstart, hbyte⟩ := h j (by rw [Nat.add_one_mul]; omega)
        have hj' : j + 1 ≤ wholeCharacters s := Nat.le_min.2 ⟨by omega, by omega⟩
        obtain ⟨hdiv', hcap'⟩ := Nat.le_min.1 hj'
        have hrest := ih (j + 1) (BitVec.ofNat 32 (crossingsAt s (windowPos s (j * s.charLen) s.dataBits))) hj'
          (by rw [Nat.add_one_mul]; omega) hdiv' hcap'
          (by rw [Nat.le_div_iff_mul_le hL, Nat.add_one_mul (j + 1)])
        rw [Nat.add_one_mul, List.range_succ, List.map_append] at hrest
        rw [if_neg hfull, if_neg (by simp [hstart]), hbyte]
        exact hrest

/-- What `DECODE` leaves of characters back to back. -/
theorem exec_decode_aligned {f : Nat → Byte} (hp : s.params.ok = true) (hb : s.baudOk = true) (hf : s.fmtOk = true)
    (hrxs : s.rxsCount.toNat ≤ s.params.rxsCapacity) (h : AlignedCharacters s f) :
    ∃ t, exec .decode s = .next t ∧ Ended t .none (decide (s.params.cap < s.rxsCount.toNat / s.charLen)) ∧
      t.rxbCount.toNat = wholeCharacters s ∧ t.rxpos.toNat = wholeCharacters s * s.charLen ∧
      ∀ j, j < wholeCharacters s → readByte t .rxb j = f j := by
  obtain ⟨xc, hend⟩ : ∃ xc, decodeStream s = ⟨(List.range (wholeCharacters s)).map f, wholeCharacters s * s.charLen,
      decide (s.params.cap < s.rxsCount.toNat / s.charLen), xc⟩ := by
    have h0 := decodeLoop_aligned (charLen_pos hb hf) h (s.rxsCount.toNat + 1) 0 s.xcount (Nat.zero_le _) (by omega)
    rwa [Nat.zero_mul] at h0
  obtain ⟨t, he, hended, -, hcount, hpos, -, ⟨hinside, -⟩, -⟩ := (decodeCommand s hp).1 hb hf hrxs
  simp only [hend, List.length_map, List.length_range] at hended hcount hpos
  simp only [hend, List.length_map, List.length_range, List.getElem_map, List.getElem_range] at hinside
  exact ⟨t, he, hended, hcount, hpos, hinside⟩

/-- A byte with the bits of the data windows, and 0 above them, is the byte of the character. -/
theorem frameByte_eq_of_bits {pos : Nat} {b : Byte}
    (h : ∀ k, k < 8 → b.getLsbD k = (decide (k < s.dataBits) && classifyAt s (windowPos s pos (k + 1)))) :
    BitVec.ofNat 8 (frameByte s pos) = b :=
  BitVec.eq_of_getLsbD_eq fun k hk => (frameByte_getLsbD s pos hk).trans (h k hk).symm

/-! ### Silence -/

/-- A window of one sign is heard as 0 (40_tone_unit.md R89). -/
theorem classifyAt_of_constant_sign {b : Bool} (hp : s.params.ok = true)
    (h : ∀ a, a < s.rxsCount.toNat → sign (readSample s .rxs a) = b) {pos : Nat}
    (hpos : pos + s.samplesPerBit ≤ s.rxsCount.toNat) : classifyAt s pos = false := by
  refine constantSignClassifiesAsZero s.params (rxWindow s pos) b hp fun x hx => ?_
  rw [rxWindow, readSampleBlock_eq] at hx
  obtain ⟨k, hk, rfl⟩ := List.mem_map.1 hx
  exact h _ (by have := List.mem_range.1 hk; omega)

theorem alignedCharacters_of_constant_sign {b : Bool} (hp : s.params.ok = true)
    (h : ∀ a, a < s.rxsCount.toNat → sign (readSample s .rxs a) = b) : AlignedCharacters s fun _ => 0x00#8 := by
  intro j hj
  rw [Nat.add_one_mul] at hj
  have hwindow : ∀ k, k ≤ s.dataBits → classifyAt s (windowPos s (j * s.charLen) k) = false := fun k hk =>
    classifyAt_of_constant_sign hp h (Nat.le_trans (dataWindow_le s _ hk) hj)
  refine ⟨by simpa [windowPos] using hwindow 0 (Nat.zero_le _), frameByte_eq_of_bits fun k _ => ?_⟩
  by_cases hk : k < s.dataBits
  · simp [hk, hwindow (k + 1) hk]
  · simp [hk]

/-- Settles O40: silence is characters 0x00 back to back. -/
theorem silenceDecodesToZeroBytes : Obligations.SilenceDecodesToZeroBytes := by
  intro s b hp hb hf hrxs h
  obtain ⟨t, he, hended, hcount, hpos, hbytes⟩ :=
    exec_decode_aligned hp hb hf hrxs (alignedCharacters_of_constant_sign hp h)
  exact ⟨t, he, by rw [hended.status], hcount, by rw [hpos, hcount], fun j hj => hbytes j (hcount ▸ hj)⟩

/-! ### The round trip -/

/-- `t` has the configuration of `s`, and the valid part of its RXS is the stream of the bytes `bs`. -/
structure HoldsStream (s t : State) (bs : List Byte) : Prop where
  params : t.params = s.params
  format : t.format = s.format
  baud : t.baud = s.baud
  rxsCount : t.rxsCount.toNat = bs.length * s.charLen
  samples : ∀ x, x < bs.length * s.charLen → (encodeStream s bs)[x]? = some (readSample t .rxs x)

theorem charLen_congr (hp : t.params = s.params) (hf : t.format = s.format) (hb : t.baud = s.baud) :
    t.charLen = s.charLen := by
  rw [State.charLen, State.charLen, frameBits_congr hf, samplesPerBit_congr hp hb]

/-- Window `w` of character `j` is the tone of bit `w` of byte `j` (43_modem_stream.md R122). -/
theorem HoldsStream.rxWindow_eq {bs : List Byte} (h : HoldsStream s t bs) (hb : s.baudOk = true) (hf : s.fmtOk = true)
    {j w : Nat} {b : Byte} {bit : Bool} (hj : bs[j]? = some b) (hw : (charBits s b)[w]? = some bit) :
    rxWindow t (j * s.charLen + w * s.samplesPerBit) = synth s.params bit s.samplesPerBit := by
  have hchar : (j + 1) * s.charLen ≤ bs.length * s.charLen :=
    Nat.mul_le_mul_right _ (List.getElem?_eq_some_iff.1 hj).1
  have hbit : w < s.frameBits := charBits_length hf b ▸ (List.getElem?_eq_some_iff.1 hw).1
  have hwindow := window_in_character s hbit
  rw [Nat.add_one_mul] at hchar
  rw [rxWindow, readSampleBlock_eq, samplesPerBit_congr h.params h.baud]
  refine List.map_congr_left fun k hk => ?_
  have hk := List.mem_range.1 hk
  have hsample := h.samples (j * s.charLen + w * s.samplesPerBit + k) (by omega)
  rw [encodeStream_getElem?_window hb hf hj hw hk] at hsample
  exact (Option.some.inj hsample).symm

/-- The core hears its own space tone, and its mark tone unless the window has a deaf length (40_tone_unit.md R90). -/
theorem classify_ownTone {p : Params} {n : Nat} (hp : p.ok = true) (hd : DesignRates p) (hn : 1 ≤ n) (bit : Bool) :
    classify p (synth p bit n) = (bit && !deafLength n) := by
  obtain ⟨-, hspace, -, hmark⟩ := ownTonesAtTheDesignRates p n hp hd hn
  cases bit
  · exact hspace
  · exact hmark

/-- What the core hears of a byte that it has sent: the data bits, or nothing at a deaf length. -/
def heardByte (s : State) (b : Byte) : Byte :=
  if deafLength s.samplesPerBit then 0x00#8 else BitVec.ofNat 8 (b.toNat % 2 ^ s.dataBits)

theorem heardByte_toNat (s : State) (b : Byte) : (heardByte s b).toNat =
    if deafLength s.samplesPerBit then 0 else b.toNat % 2 ^ s.dataBits := by
  have hlt : b.toNat % 2 ^ s.dataBits < 2 ^ 8 := Nat.lt_of_le_of_lt (Nat.mod_le ..) b.isLt
  rw [heardByte]
  split
  · rfl
  · rw [BitVec.toNat_ofNat, Nat.mod_eq_of_lt hlt]

theorem heardByte_getLsbD (s : State) (b : Byte) {k : Nat} (hk : k < 8) : (heardByte s b).getLsbD k =
    (decide (k < s.dataBits) && (b.getLsbD k && !deafLength s.samplesPerBit)) := by
  rw [heardByte]
  split
  · simp [*]
  · rw [BitVec.getLsbD_ofNat, Nat.testBit_mod_two_pow, BitVec.testBit_toNat]
    simp [*]

theorem HoldsStream.alignedCharacters {bs : List Byte} (h : HoldsStream s t bs) (hp : s.params.ok = true)
    (hd : DesignRates s.params) (hb : s.baudOk = true) (hf : s.fmtOk = true) :
    AlignedCharacters t fun j => heardByte s (bs[j]?.getD 0x00#8) := by
  have hspb := samplesPerBit_congr h.params h.baud
  have hbits : t.dataBits = s.dataBits := by rw [State.dataBits, h.format, State.dataBits]
  intro j hj
  rw [charLen_congr h.params h.format h.baud, h.rxsCount] at hj
  obtain ⟨b, hbyte⟩ : ∃ b, bs[j]? = some b :=
    ⟨_, List.getElem?_eq_getElem (Nat.lt_of_succ_le (Nat.le_of_mul_le_mul_right hj (charLen_pos hb hf)))⟩
  have hwindow : ∀ (w : Nat) (bit : Bool), (charBits s b)[w]? = some bit →
      classifyAt t (windowPos t (j * s.charLen) w) = (bit && !deafLength s.samplesPerBit) := by
    intro w bit hw
    rw [classifyAt, windowPos, hspb, h.rxWindow_eq hb hf hbyte hw, h.params]
    exact classify_ownTone hp hd (samplesPerBit_pos hb) bit
  simp only [charLen_congr h.params h.format h.baud, hbyte, Option.getD_some]
  refine ⟨by simpa [windowPos] using hwindow 0 false (charBits_start _), frameByte_eq_of_bits fun k hk => ?_⟩
  rw [heardByte_getLsbD s _ hk, hbits]
  by_cases hdata : k < s.dataBits
  · rw [hwindow (k + 1) _ (charBits_data _ (Nat.le_add_left 1 k) hdata), Nat.add_sub_cancel]
  · simp [hdata]

/-- The loop-back on an idle core, inside both capacities (20_memory.md R47). -/
theorem hostMove_loopback (hb : s.status.busy = false) (htx : s.txsCount.toNat ≤ s.params.txsCapacity)
    (hrx : s.txsCount.toNat ≤ s.params.rxsCapacity) : hostMove .loopback s =
      .next (writeReg .rxsCount s.txsCount (copySamples .txs 0 .rxs 0 s.txsCount.toNat s)) := by
  rw [hostMove, whenOwned_idle hb, withSamples_inside (by rwa [Nat.zero_add]),
    withSamples_inside (by rwa [Nat.zero_add])]

/-- After `ENCODE` and the loop-back RXS holds the stream of the payload. -/
theorem encode_loopback_holdsStream (hp : s.params.ok = true) (hb : s.baudOk = true) (hf : s.fmtOk = true)
    (hne : s.txbCount.toNat ≠ 0) (hle : s.txbCount.toNat ≤ s.params.txbCapacity)
    (htx : s.txbCount.toNat * s.charLen ≤ s.params.txsCapacity)
    (hrx : s.txbCount.toNat * s.charLen ≤ s.params.rxsCapacity) :
    ∃ s1 s2, exec .encode s = .next s1 ∧ hostMove .loopback s1 = .next s2 ∧ HoldsStream s s2 (payload s) := by
  have hassoc : s.txbCount.toNat * s.frameBits * s.samplesPerBit = s.txbCount.toNat * s.charLen := Nat.mul_assoc ..
  obtain ⟨s1, he, hended, -, hcount, hwritten, -, -, hkept, -⟩ :=
    (encodeCommand s hp).1 hb hf hne hle (hassoc ▸ htx)
  rw [hassoc] at hcount
  have hidle : s1.status.busy = false := by rw [hended.status]
  refine ⟨s1, _, he, hostMove_loopback hidle (by rwa [hkept.params, hcount]) (by rwa [hkept.params, hcount]),
    hkept.params, hkept.format, hkept.baud, by rw [payload_length]; exact hcount, fun x hx => ?_⟩
  rw [payload_length] at hx
  have hlen : x < (encodeStream s (payload s)).length := by rwa [encodeStream_length hf, payload_length]
  have hcopy := readSample_copySamples_inside (s := s1) .txs .rxs 0 0 (hcount ▸ hx)
  have hsent := hwritten.inside x hlen
  rw [Nat.zero_add] at hcopy hsent
  rw [readSample_writeReg, hcopy, hsent, List.getElem?_eq_getElem hlen]

/-- Settles O41: the stream is characters back to back, each heard as `heardByte` of its byte. -/
theorem loopBackRoundTrip : Obligations.LoopBackRoundTrip := by
  intro s hp hd hb hf hne hle htx hrx
  obtain ⟨s1, s2, he1, he2, hholds⟩ := encode_loopback_holdsStream hp hb hf hne hle htx hrx
  have hlen : s2.charLen = s.charLen := charLen_congr hholds.params hholds.format hholds.baud
  have hcount : s2.rxsCount.toNat = s.txbCount.toNat * s.charLen := by rw [hholds.rxsCount, payload_length]
  have hchars : s2.rxsCount.toNat / s2.charLen = s.txbCount.toNat := by
    rw [hcount, hlen, Nat.mul_div_cancel _ (charLen_pos hb hf)]
  have hwhole : wholeCharacters s2 = min s.txbCount.toNat s.params.cap := by
    rw [wholeCharacters, hchars, hholds.params]
  obtain ⟨s3, he3, hended, hrxb, hrxpos, hbytes⟩ := exec_decode_aligned (hholds.params ▸ hp)
    (baudOk_congr hholds.params hholds.baud ▸ hb) (fmtOk_congr hholds.format ▸ hf)
    (by rwa [hcount, hholds.params]) (hholds.alignedCharacters hp hd hb hf)
  rw [hwhole] at hrxb hrxpos hbytes
  rw [hlen] at hrxpos
  rw [hchars, hholds.params] at hended
  refine ⟨s1, s2, s3, he1, he2, he3, hended, hrxb, hrxpos, fun j hj => ?_⟩
  have hpayload : j < (payload s).length := by
    rw [payload_length]
    exact Nat.lt_of_lt_of_le hj (Nat.min_le_left ..)
  rw [hbytes j hj, heardByte_toNat, List.getElem?_eq_getElem hpayload, Option.getD_some, payload_getElem]

end Sys2Proof.Machine
end

section
/-! PROOFS. Launched commands, turn by turn: the six unit commands (43_modem_stream.md R120), the rows of the machine of
`DECODE` (R125), and that a busy core always finishes (R129). -/

namespace Sys2Proof.Machine

variable {s t : State}

/-! ### Runs -/

/-- Some number of steps leads from `s` to `t`. -/
def Leads (s t : State) : Prop := Relation.ReflTransGen (fun u v => step u = .next v) s t

theorem Leads.exists_run (h : Leads s t) : ∃ k, Host.Core.run Sys2Proof.core k s = .next t := by
  induction h using Relation.ReflTransGen.head_induction_on with
  | refl => exact ⟨0, rfl⟩
  | head hstep _ ih =>
    obtain ⟨k, hk⟩ := ih
    exact ⟨k + 1, (run_succ_of_step k hstep).trans hk⟩

theorem step_coreTurn (hp : s.params.ok = true) (hh : s.host = []) : step s = .next (coreTurn s) := by
  simp [step, hp, hh]

/-- A launch on an idle core is the first part of its command. -/
theorem step_launch {i : Instr} {rest : List HostAct} (hp : s.params.ok = true) (hb : s.status.busy = false)
    (hh : s.host = .launch (encode i) :: rest) : step s = .next (start i (accepted i { s with host := rest })) := by
  rw [step_host hp hh]
  simp [hostMove, launch, hb, decode_encode, accepted]

/-! ### The six unit commands -/

/-- Two states that differ only in what completion overwrites complete to the same state, guard by guard. -/
theorem complete_ite_congr {c : Prop} [Decidable c] {a a' b b' : State} (ha : complete a = complete a')
    (hb : complete b = complete b') : complete (if c then a else b) = complete (if c then a' else b') := by
  split
  · exact ha
  · exact hb

/-- No command looks at which command is running, and completion clears it. -/
theorem complete_bodyOf_accepted {i : Instr} (he : i ≠ .encode) (hd : i ≠ .decode) (s : State) :
    complete (bodyOf i (accepted i s)) = command (bodyOf i) s := by
  cases i with
  | encode => exact absurd rfl he
  | decode => exact absurd rfl hd
  | nop => rfl
  | frameEnc | synth | classify => exact complete_ite_congr (complete_ite_congr rfl rfl) rfl
  | frameDec =>
    refine complete_ite_congr (complete_ite_congr rfl ?_) rfl
    have hsame : frameDec (accepted .frameDec s) (accepted .frameDec s).rxpos.toNat =
      frameDec (accept s) (accept s).rxpos.toNat := rfl
    rw [hsame]
    cases frameDec (accept s) (accept s).rxpos.toNat <;> rfl
  | parity =>
    have hsame : (accepted .parity s).parityMode = (accept s).parityMode := rfl
    simp only [bodyOf, command, parityBody, hsame]
    cases (accept s).parityMode <;> rfl

theorem start_unit {i : Instr} (he : i ≠ .encode) (hd : i ≠ .decode) (s : State) : start i s = s := by
  cases i with
  | encode => exact absurd rfl he
  | decode => exact absurd rfl hd
  | nop | frameEnc | frameDec | synth | classify | parity => rfl

/-- Settles O45: the first step accepts the command, the second is its one turn. -/
theorem unitCommandsActInOneTurn : Obligations.UnitCommandsActInOneTurn := by
  intro s i hp hb he hd hh
  have hlaunch := step_launch hp hb hh
  have hturn := step_coreTurn (s := accepted i { s with host := [] }) hp rfl
  rw [start_unit he hd] at hlaunch
  rw [coreTurn_unit rfl rfl he hd, complete_bodyOf_accepted he hd] at hturn
  rw [run_succ_of_step 1 hlaunch, run_succ_of_step 0 hturn, exec_eq_command]
  rfl

/-! ### The rows of the machine of `DECODE` -/

theorem rxStep_exhausted (hx : s.rxState = .searching) (h : s.rxsCount.toNat < s.rxpos.toNat + s.charLen) :
    rxStep s = complete s := by
  simp only [rxStep, hx]
  exact if_pos h

theorem rxStep_full (hx : s.rxState = .searching) (h : s.rxpos.toNat + s.charLen ≤ s.rxsCount.toNat)
    (hfull : s.rxbCount.toNat = s.params.cap) : rxStep s = complete (setTrunc true s) := by
  simp only [rxStep, hx]
  exact (if_neg (Nat.not_lt_of_le h)).trans (if_pos hfull)

theorem rxStep_candidate (hx : s.rxState = .searching) (h : s.rxpos.toNat + s.charLen ≤ s.rxsCount.toNat)
    (hroom : s.rxbCount.toNat ≠ s.params.cap) : rxStep s = if classifyAt s s.rxpos.toNat
      then setRxpos (s.rxpos.toNat + 1) (countWindow s) else setRxState .startConfirmed (countWindow s) := by
  simp only [rxStep, hx]
  exact (if_neg (Nat.not_lt_of_le h)).trans (if_neg hroom)

/-- No row writes `SPB`, `RESULT`, the transmit side or the host's side. -/
theorem rxStep_frame (s : State) : (rxStep s).spb = s.spb ∧ (rxStep s).result = s.result ∧ HostSideKept s (rxStep s) ∧
    TransmitKept s (rxStep s) := by
  cases hx : s.rxState with
  | idle =>
    rw [show rxStep s = s by simp only [rxStep, hx]]
    exact ⟨by simp, by simp, by constructor <;> simp, by constructor <;> simp⟩
  | searching =>
    rcases rxStep_searching_cases hx with ⟨-, he⟩ | ⟨-, -, he⟩ | ⟨-, -, -, he⟩ | ⟨-, -, -, he⟩ <;> rw [he] <;>
      exact ⟨by simp, by simp, by constructor <;> simp, by constructor <;> simp⟩
  | startConfirmed =>
    rw [rxStep_startConfirmed hx]
    exact ⟨by simp, by simp, by constructor <;> simp, by constructor <;> simp⟩
  | data =>
    rcases rxStep_data_cases hx with ⟨-, he⟩ | ⟨-, -, he⟩ | ⟨-, -, he⟩ <;> rw [he] <;>
      exact ⟨by simp, by simp, by constructor <;> simp, by constructor <;> simp⟩
  | parity =>
    rw [rxStep_parity hx]
    exact ⟨by simp, by simp, by constructor <;> simp, by constructor <;> simp⟩
  | stop =>
    rcases rxStep_stop_cases hx with ⟨-, he⟩ | ⟨-, he⟩ <;> rw [he] <;>
      exact ⟨by simp, by simp, by constructor <;> simp, by constructor <;> simp⟩

theorem receiveKept_of_mem_eq (hc : t.rxbCount = s.rxbCount) (hm : t.mem = s.mem) (he : t.epoch = s.epoch) :
    ReceiveKept s t :=
  ⟨hc, fun a => readByte_congr hm he .rxb a⟩

section Rows

variable (hI : Inv s) (hrun : s.running = some .decode)
include hI hrun

/-- The status of a `DECODE` that ends, untruncated or not. -/
theorem complete_setTrunc_ended (b : Bool) : Ended (complete (setTrunc b s)) .none b := by
  have hst := hI.busy_status (hI.busy_of_running hrun)
  exact ⟨by simp [hst], rfl, rfl⟩

theorem complete_ended_none : Ended (complete s) .none false := by
  have hst := hI.busy_status (hI.busy_of_running hrun)
  exact ⟨by simp [hst], rfl, rfl⟩

/-- What every outcome of a turn in `DATA` does, `JSTOP` and the next state apart. -/
theorem dataTurn_row (hx : s.rxState = .data) {x : RxState} {w : Work} (hshift : w.shift = (dataWork s).shift)
    (hkbit : w.kbit = (dataWork s).kbit) :
    (dataTurn x w s).status = s.status ∧ (dataTurn x w s).running = s.running ∧ ReceiveKept s (dataTurn x w s) ∧
    (dataTurn x w s).work.shift.getLsbD s.work.kbit.toNat = classifyAt s s.rxpos.toNat ∧
    (∀ k, k ≠ s.work.kbit.toNat → (dataTurn x w s).work.shift.getLsbD k = s.work.shift.getLsbD k) ∧
    (dataTurn x w s).rxpos.toNat = s.rxpos.toNat + s.samplesPerBit ∧
    (dataTurn x w s).work.kbit.toNat = s.work.kbit.toNat + 1 := by
  have hrx := hI.rx hrun
  obtain ⟨-, hf, -⟩ := hrx.checked
  obtain ⟨-, hdata, -⟩ := fmtOk_bounds hf
  have hbit := shiftIn_getLsbD (classifyAt s s.rxpos.toNat)
    { s.work with wi := s.samplesPerBit, xc := crossingsAt s s.rxpos.toNat } (hrx.shift hx)
    (Nat.lt_of_lt_of_le (hrx.kbit hx) hdata)
  rw [dataTurn_work, dataTurn_rxpos, hshift, hkbit]
  refine ⟨dataTurn_status .., dataTurn_running .., ⟨dataTurn_rxbCount .., readByte_dataTurn s x w .rxb⟩, ?_,
    fun k hk => ?_, hrx.rxpos_step (by rw [hx]; rfl), kbit_succ hf (hrx.kbit hx)⟩
  · rw [dataWork, hbit, if_pos rfl]
  · rw [dataWork, hbit, if_neg hk]

end Rows

/-- Settles O42: each row is an outcome of `rxStep`, whose guards decide which clause speaks of it. -/
theorem decodeMachineFollowsTheTable : Obligations.DecodeMachineFollowsTheTable := by
  intro s hI hrun hh
  have hrx := hI.rx hrun
  obtain ⟨hb, hf, -⟩ := hrx.checked
  refine ⟨rxStep s, step_running_decode hI hrun hh, fun hx hend => ?_, fun hx hin hfull => ?_,
    fun hx hin hroom => ?_, fun hx => ?_, fun hx => ?_, fun hx => ?_, fun hx => ?_, rxStep_frame s⟩
  · rw [rxStep_exhausted hx hend]
    exact ⟨complete_ended_none hI hrun, rfl, receiveKept_of_mem_eq rfl rfl rfl⟩
  · rw [rxStep_full hx hin hfull]
    exact ⟨complete_setTrunc_ended hI hrun true, rfl, receiveKept_of_mem_eq rfl rfl rfl⟩
  · rw [rxStep_candidate hx hin hroom]
    cases hc : classifyAt s s.rxpos.toNat
    · exact ⟨rfl, rfl, receiveKept_of_mem_eq rfl rfl rfl, rfl, rfl, rfl,
        ⟨fun h => (Bool.false_ne_true h).elim, fun _ => ⟨rfl, rfl⟩⟩⟩
    · have hpos := rxpos_fits (s := s) (pos := s.rxpos.toNat + 1) (by have := charLen_pos hb hf; omega)
      exact ⟨rfl, rfl, receiveKept_of_mem_eq rfl rfl rfl, rfl, rfl, rfl,
        ⟨fun _ => ⟨hpos, hx⟩, fun h => (Bool.false_ne_true h.symm).elim⟩⟩
  · rw [rxStep_startConfirmed hx]
    exact ⟨rfl, rfl, receiveKept_of_mem_eq rfl rfl rfl, hrx.rxpos_step (by rw [hx]; rfl), rfl, rfl, rfl, rfl⟩
  · have hnext := kbit_succ hf (hrx.kbit hx)
    rcases rxStep_data_cases hx with ⟨hlt, he⟩ | ⟨hge, hp, he⟩ | ⟨hge, hp, he⟩ <;> rw [he]
    · obtain ⟨hst, hr, hkept, hbit, hbits, hpos, hkbit⟩ :=
        dataTurn_row hI hrun hx (x := .data) (w := dataWork s) rfl rfl
      exact ⟨hst, hr, hkept, hbit, hbits, hpos, hkbit, fun _ => ⟨rfl, rfl⟩, fun h => by omega, fun h => by omega⟩
    · obtain ⟨hst, hr, hkept, hbit, hbits, hpos, hkbit⟩ :=
        dataTurn_row hI hrun hx (x := .parity) (w := dataWork s) rfl rfl
      exact ⟨hst, hr, hkept, hbit, hbits, hpos, hkbit, fun h => by omega, fun _ _ => ⟨rfl, rfl⟩, fun _ h => absurd hp h⟩
    · obtain ⟨hst, hr, hkept, hbit, hbits, hpos, hkbit⟩ :=
        dataTurn_row hI hrun hx (x := .stop) (w := { dataWork s with jstop := 0#8 }) rfl rfl
      exact ⟨hst, hr, hkept, hbit, hbits, hpos, hkbit, fun h => by omega, fun _ h => absurd h hp, fun _ _ => ⟨rfl, rfl⟩⟩
  · rw [rxStep_parity hx]
    exact ⟨rfl, rfl, receiveKept_of_mem_eq rfl rfl rfl, hrx.rxpos_step (by rw [hx]; rfl), rfl, rfl, rfl, rfl⟩
  · have hin : s.rxState.inCharacter = true := by rw [hx]; rfl
    have hnext := jstop_succ (hrx.jstop hx)
    have hcount := cap_fits hI.params (hrx.room hin)
    rcases rxStep_stop_cases hx with ⟨hlt, he⟩ | ⟨hge, he⟩ <;> rw [he]
    · exact ⟨by simp, by simp, hrx.rxpos_step hin, hnext, by simp, by simp,
        fun _ => ⟨⟨stopTurn_rxbCount .., readByte_stopTurn s .stop .rxb⟩, by simp⟩, fun h => by omega⟩
    · refine ⟨by simp, by simp, hrx.rxpos_step hin, hnext, by simp, by simp, fun h => by omega,
        fun _ => ⟨hcount, by simp, fun a ha => ?_, by simp⟩⟩
      rw [readByte_setRxbCount, readByte_writeBytes_outside (.inr ?_), readByte_stopTurn]
      simp
      omega

/-! ### A busy core always finishes -/

/-- The nested counters go on by one sample, one window or one character, each when the one before it is at its end. -/
theorem nextTx_carry (s : State) :
    (s.work.wi + 1 < s.samplesPerBit ∧ nextTx s = { s.work with wi := s.work.wi + 1 }) ∨
    (s.samplesPerBit ≤ s.work.wi + 1 ∧ s.work.txk + 1 < s.frameBits ∧
      nextTx s = { s.work with wi := 0, txk := s.work.txk + 1 }) ∨
    (s.samplesPerBit ≤ s.work.wi + 1 ∧ s.frameBits ≤ s.work.txk + 1 ∧
      nextTx s = { s.work with wi := 0, txk := 0, txi := s.work.txi + 1#32 }) := by
  unfold nextTx
  split
  · exact .inl ⟨‹_›, rfl⟩
  · split
    · exact .inr (.inl ⟨by omega, ‹_›, rfl⟩)
    · exact .inr (.inr ⟨by omega, by omega, rfl⟩)

/-- The counters go on to the next sample (43_modem_stream.md R134). -/
theorem txIndex_nextTx (h : TxInv s) (ht : s.work.txi.toNat < s.txbCount.toNat) :
    txIndex (setWork (nextTx s) s) = txIndex s + 1 := by
  obtain ⟨hk, hw⟩ := h.inner ht
  rcases nextTx_carry s with ⟨-, he⟩ | ⟨hwi, -, he⟩ | ⟨hwi, htxk, he⟩ <;> rw [he]
  · rfl
  · have hspb : s.samplesPerBit = s.work.wi + 1 := by omega
    simp only [txIndex, setWork_work, setWork_charLen, setWork_samplesPerBit, Nat.add_one_mul]
    omega
  · have hspb : s.samplesPerBit = s.work.wi + 1 := by omega
    have hL : s.charLen = s.work.txk * s.samplesPerBit + s.samplesPerBit := by
      rw [State.charLen, ← Nat.add_one_mul, (by omega : s.frameBits = s.work.txk + 1)]
    have hnext : (s.work.txi + 1#32).toNat = s.work.txi.toNat + 1 := by
      have := s.txbCount.isLt
      simp [BitVec.toNat_add]
      omega
    simp only [txIndex, setWork_work, setWork_charLen, setWork_samplesPerBit, hnext, Nat.add_one_mul]
    omega

/-- A bound on the turns that a running command still takes: every turn of `DECODE` moves `RXPOS` on, but the one that
confirms a start bit; every turn of `ENCODE` writes a sample. -/
def turnsLeft (s : State) : Nat :=
  if s.running = some .decode then
    2 * (s.rxsCount.toNat - s.rxpos.toNat) + (if s.rxState = .searching then 1 else 0)
  else encodeTotal s - txIndex s

/-- The core has completed its command, or it is still busy and has fewer turns left. -/
def Progress (s t : State) : Prop :=
  (t.status.busy = false ∧ t.status.done = true) ∨ (t.status.busy = true ∧ turnsLeft t < turnsLeft s)

theorem complete_progress (s t : State) : Progress s (complete t) := .inl ⟨rfl, rfl⟩

/-- A turn of `DECODE` that goes on and brings the two numbers of `turnsLeft` down. -/
theorem progress_of_decode (hrun : s.running = some .decode) (hr : t.running = s.running) (hb : t.status.busy = true)
    (h : 2 * (t.rxsCount.toNat - t.rxpos.toNat) + (if t.rxState = .searching then 1 else 0) <
      2 * (s.rxsCount.toNat - s.rxpos.toNat) + (if s.rxState = .searching then 1 else 0)) : Progress s t := by
  refine .inr ⟨hb, ?_⟩
  rwa [turnsLeft, turnsLeft, if_pos (hr.trans hrun), if_pos hrun]

/-- A turn that consumes a window of a character. -/
theorem RxInv.window_progress (hrx : RxInv s) (hin : s.rxState.inCharacter = true) (hrun : s.running = some .decode)
    (hr : t.running = s.running) (hb : t.status.busy = true) (hn : t.rxsCount = s.rxsCount)
    (hpos : t.rxpos = BitVec.ofNat 32 (s.rxpos.toNat + s.samplesPerBit)) : Progress s t := by
  have hspb := samplesPerBit_pos hrx.checked.1
  have hleft := Nat.le_mul_of_pos_left s.samplesPerBit (hrx.windowsLeft_pos hin)
  have hwindow := hrx.window
  have hstep : t.rxpos.toNat = s.rxpos.toNat + s.samplesPerBit := by rw [hpos, hrx.rxpos_step hin]
  refine progress_of_decode hrun hr hb ?_
  rw [hn, hstep]
  split <;> split <;> omega

theorem rxStep_progress (hI : Inv s) (hrun : s.running = some .decode) : Progress s (rxStep s) := by
  have hrx := hI.rx hrun
  have hb := hI.busy_of_running hrun
  cases hx : s.rxState with
  | idle => exact absurd hx hrx.active
  | searching =>
    obtain ⟨hbaud, hf, -⟩ := hrx.checked
    rcases rxStep_searching_cases hx with ⟨-, he⟩ | ⟨-, -, he⟩ | ⟨hin, -, -, he⟩ | ⟨-, -, -, he⟩ <;> rw [he]
    · exact complete_progress ..
    · exact complete_progress ..
    · have hL := charLen_pos hbaud hf
      refine progress_of_decode hrun rfl hb ?_
      rw [setRxpos_rxpos, rxpos_fits (s := s) (by omega)]
      simp [hx]
      omega
    · exact progress_of_decode hrun rfl hb (by simp [hx])
  | startConfirmed =>
    rw [rxStep_startConfirmed hx]
    exact hrx.window_progress (by rw [hx]; rfl) hrun (by simp) (by simpa using hb) (by simp) (by simp)
  | data =>
    rcases rxStep_data_cases hx with ⟨-, he⟩ | ⟨-, -, he⟩ | ⟨-, -, he⟩ <;> rw [he] <;>
      exact hrx.window_progress (by rw [hx]; rfl) hrun (by simp) (by simpa using hb) (by simp) (by simp)
  | parity =>
    rw [rxStep_parity hx]
    exact hrx.window_progress (by rw [hx]; rfl) hrun (by simp) (by simpa using hb) (by simp) (by simp)
  | stop =>
    rcases rxStep_stop_cases hx with ⟨-, he⟩ | ⟨-, he⟩ <;> rw [he] <;>
      exact hrx.window_progress (by rw [hx]; rfl) hrun (by simp) (by simpa using hb) (by simp) (by simp)

theorem txStep_progress (hI : Inv s) (hrun : s.running = some .encode) : Progress s (txStep s) := by
  have htx := hI.tx hrun
  rcases txStep_cases s with ⟨ht, he⟩ | ⟨-, he⟩ <;> rw [he]
  · have hnext : txIndex (setWork (nextTx s) (writeSamples .txs (txIndex s) [txSample s] s)) = txIndex s + 1 :=
      (txIndex_nextTx htx ht :)
    have hinside : txIndex s < encodeTotal s := htx.txIndex_lt ht
    refine .inr ⟨hI.busy_of_running hrun, ?_⟩
    rw [turnsLeft, turnsLeft, if_neg (by simp [hrun]), if_neg (by simp [hrun]), hnext]
    exact Nat.sub_lt_sub_left hinside (Nat.lt_succ_self _)
  · exact complete_progress ..

theorem coreTurn_progress (hI : Inv s) (hb : s.status.busy = true) : Progress s (coreTurn s) := by
  obtain ⟨i, hr⟩ := Option.ne_none_iff_exists'.1 (hI.busy hb).1
  cases i with
  | encode =>
    rw [coreTurn_encode hb hr]
    exact txStep_progress hI hr
  | decode =>
    rw [coreTurn_decode hb hr]
    exact rxStep_progress hI hr
  | nop | frameEnc | frameDec | synth | classify | parity =>
    rw [coreTurn_unit hb hr (by simp) (by simp)]
    exact complete_progress ..

/-- A turn of the core makes no move of the host. -/
theorem coreTurn_host (hI : Inv s) (hb : s.status.busy = true) : (coreTurn s).host = s.host := by
  obtain ⟨i, hr⟩ := Option.ne_none_iff_exists'.1 (hI.busy hb).1
  cases i with
  | encode =>
    rw [coreTurn_encode hb hr]
    rcases txStep_cases s with ⟨-, he⟩ | ⟨-, he⟩ <;> rw [he] <;> rfl
  | decode =>
    obtain ⟨-, -, hkept, -⟩ := rxStep_frame s
    rw [coreTurn_decode hb hr]
    exact hkept.host
  | nop | frameEnc | frameDec | synth | classify | parity =>
    rw [coreTurn_unit hb hr (by simp) (by simp)]
    exact (bodyOf_hostSideKept s _).host

theorem leads_to_completion (hI : Inv s) (hb : s.status.busy = true) (hh : s.host = []) :
    ∃ t, Leads s t ∧ t.status.busy = false ∧ t.status.done = true := by
  induction hn : turnsLeft s using Nat.strong_induction_on generalizing s with
  | _ n ih =>
    have hstep := step_coreTurn hI.params hh
    rcases coreTurn_progress hI hb with hend | ⟨hbusy, hless⟩
    · exact ⟨coreTurn s, .single hstep, hend⟩
    · obtain ⟨t, hleads, hend⟩ :=
        ih _ (hn ▸ hless) (coreTurn_inv hI) hbusy ((coreTurn_host hI hb).trans hh) rfl
      exact ⟨t, .head hstep hleads, hend⟩

/-- Settles O46: by induction on the turns left. -/
theorem busyCoreAlwaysFinishes : Obligations.BusyCoreAlwaysFinishes := by
  intro s hI hb hh
  obtain ⟨t, hleads, hend⟩ := leads_to_completion hI hb hh
  obtain ⟨k, hk⟩ := hleads.exists_run
  exact ⟨k, t, hk, hend⟩

end Sys2Proof.Machine
end

section
/-! PROOFS. The nested loops of `ENCODE`, run turn by turn, end in the very state of the atomic command
(43_modem_stream.md R123). -/

namespace Sys2Proof.Machine

variable {s : State}

/-! ### The checks of `ENCODE` -/

theorem encodeChecks_iff (s : State) : (s.baudOk && s.fmtOk && s.txbFits) = true ↔
    s.baudOk = true ∧ s.fmtOk = true ∧ s.txbCount.toNat ≠ 0 ∧ s.txbCount.toNat ≤ s.params.txbCapacity := by
  simp only [Bool.and_eq_true, txbFits_iff, and_assoc]

theorem encodeWith_checked (go : State → State) (hok : (s.baudOk && s.fmtOk && s.txbFits) = true)
    (hfits : encodeTotal s ≤ s.params.txsCapacity) : encodeWith go s = go (latchSpb (setTxsCount 0 s)) := by
  rw [encodeWith, if_pos hok, if_neg (Nat.not_lt_of_le hfits)]

theorem encodeWith_alloc (go : State → State) (hok : (s.baudOk && s.fmtOk && s.txbFits) = true)
    (hfull : s.params.txsCapacity < encodeTotal s) : encodeWith go s = raise .alloc (latchSpb (setTxsCount 0 s)) := by
  rw [encodeWith, if_pos hok, if_pos hfull]

theorem encodeWith_invalid (go : State → State) (hbad : ¬ (s.baudOk && s.fmtOk && s.txbFits) = true) :
    encodeWith go s = raise .invalid (latchSpbOnInvalid (setTxsCount 0 s)) := by
  rw [encodeWith, if_neg hbad]

/-! ### The nested loops of `ENCODE` -/

theorem writeSamples_snoc (s : State) (vs : List Sample) (v : Sample) :
    writeSamples .txs vs.length [v] (writeSamples .txs 0 vs s) = writeSamples .txs 0 (vs ++ [v]) s := by
  have h := cells_store_snoc s.mem.txs 0 vs v
  rw [Nat.zero_add] at h
  simp [writeSamples, Memory.storeSamples, h]

theorem writeSamples_nil (s : State) : writeSamples .txs 0 [] s = s := by
  rw [writeSamples, Memory.storeSamples, cells_store_nil_zero]

/-- `ENCODE` after `n` samples of the stream, with the working registers at `w`. -/
def encoding (s : State) (w : Work) (n : Nat) : State :=
  setWork w (writeSamples .txs 0 ((encodeStream s (payload s)).take n) (latchSpb (setTxsCount 0 (accepted .encode s))))

/-- What a turn of `ENCODE` reads of this state is what it reads of `s` with these counters. -/
theorem encoding_nextTx (w : Work) (n : Nat) : nextTx (encoding s w n) = nextTx (setWork w s) := rfl

theorem encoding_txIndex (w : Work) (n : Nat) : txIndex (encoding s w n) = txIndex (setWork w s) := rfl

theorem encoding_txSample (w : Work) (n : Nat) : txSample (encoding s w n) = txSample (setWork w s) := rfl

/-- The sample of a turn is the next one of the stream (43_modem_stream.md R134). -/
theorem encodeStream_getElem?_txIndex (h : TxInv s) (ht : s.work.txi.toNat < s.txbCount.toNat) :
    (encodeStream s (payload s))[txIndex s]? = some (txSample s) := by
  obtain ⟨hb, hf⟩ := h.checked
  obtain ⟨hk, hw⟩ := h.inner ht
  have hbyte : (payload s)[s.work.txi.toNat]? = some (readByte s .txb s.work.txi.toNat) := by
    rw [List.getElem?_eq_getElem (by rwa [payload_length]), payload_getElem]
  have hbit := List.getElem?_eq_getElem (by rwa [charBits_length hf (readByte s .txb s.work.txi.toNat)])
  rw [txSample, hbit]
  exact encodeStream_getElem?_window hb hf hbyte hbit hw

variable {w : Work} {n : Nat}

/-- A turn writes one more sample of the stream. -/
theorem txStep_encoding (h : TxInv (setWork w s)) (ht : w.txi.toNat < s.txbCount.toNat)
    (hn : txIndex (setWork w s) = n) :
    txStep (encoding s w n) = encoding s (nextTx (setWork w s)) (n + 1) := by
  have hsample : (encodeStream s (payload s))[n]? = some (txSample (setWork w s)) :=
    hn ▸ (encodeStream_getElem?_txIndex h ht :)
  have hlen : ((encodeStream s (payload s)).take n).length = n := by
    obtain ⟨hlt, -⟩ := List.getElem?_eq_some_iff.1 hsample
    rw [List.length_take, Nat.min_eq_left hlt.le]
  have hsnoc := writeSamples_snoc (latchSpb (setTxsCount 0 (accepted .encode s)))
    ((encodeStream s (payload s)).take n) (txSample (setWork w s))
  rcases txStep_cases (encoding s w n) with ⟨-, he⟩ | ⟨hge, -⟩
  · rw [he, encoding_nextTx, encoding_txIndex, encoding_txSample, hn, encoding, encoding, List.take_add_one, hsample,
      Option.toList_some, ← hsnoc, hlen]
    rfl
  · exact absurd ht (Nat.not_lt_of_le hge)

/-- What `ENCODE` leaves when its checks hold. -/
def encodeLeaves (s : State) : State :=
  complete (setTxsCount (encodeTotal s)
    (writeSamples .txs 0 (encodeStream s (payload s)) (latchSpb (setTxsCount 0 (accept s)))))

/-- The last turn, after the whole stream. -/
theorem txStep_encoding_end (hf : s.fmtOk = true) (ht : s.txbCount.toNat ≤ w.txi.toNat)
    (hn : txIndex (setWork w s) = n) : txStep (encoding s w n) = encodeLeaves s := by
  have hchars := Nat.mul_le_mul_right s.charLen ht
  have hindex : w.txi.toNat * s.charLen ≤ n := by
    rw [← hn, txIndex, Nat.add_assoc]
    exact Nat.le_add_right ..
  have hall : (encodeStream s (payload s)).take n = encodeStream s (payload s) := by
    apply List.take_of_length_le
    rw [encodeStream_length hf, payload_length]
    omega
  rcases txStep_cases (encoding s w n) with ⟨hlt, -⟩ | ⟨-, he⟩
  · exact absurd ht (Nat.not_le_of_lt hlt)
  · rw [he, encodeLeaves, encoding, hall]
    rfl

theorem step_encoding (hp : s.params.ok = true) (hh : s.host = []) (w : Work) (n : Nat) :
    step (encoding s w n) = .next (txStep (encoding s w n)) := by
  rw [step_coreTurn (s := encoding s w n) hp hh, coreTurn_encode rfl rfl]

/-- By induction on the samples left. -/
theorem encoding_leads (hp : s.params.ok = true) (hh : s.host = []) (h : TxInv (setWork w s))
    (hn : txIndex (setWork w s) = n) : Leads (encoding s w n) (encodeLeaves s) := by
  induction hm : encodeTotal s - n using Nat.strong_induction_on generalizing w n with
  | _ m ih =>
    have hstep := step_encoding hp hh w n
    rcases Nat.lt_or_ge w.txi.toNat s.txbCount.toNat with ht | ht
    · have hinside : n < encodeTotal s := hn ▸ (h.txIndex_lt ht :)
      rw [txStep_encoding h ht hn] at hstep
      exact .head hstep (ih _ (by omega) (h.nextTx ht) ((txIndex_nextTx h ht).trans (congrArg (· + 1) hn)) rfl)
    · rw [txStep_encoding_end (s := s) h.checked.2 ht hn] at hstep
      exact .single hstep

/-- The counters of an accepted `ENCODE`. -/
def firstSample (w : Work) : Work := { w with txi := 0#32, txk := 0, wi := 0 }

theorem start_encode_checked (hok : (s.baudOk && s.fmtOk && s.txbFits) = true)
    (hfits : encodeTotal s ≤ s.params.txsCapacity) :
    start .encode (accepted .encode s) = encoding s (firstSample s.work) 0 := by
  rw [start, encodeWith_checked (s := accepted .encode s) _ hok hfits, endIfRaised_of_none rfl, encoding,
    List.take_zero, writeSamples_nil]
  rfl

theorem firstSample_txInv (hok : (s.baudOk && s.fmtOk && s.txbFits) = true)
    (hfits : encodeTotal s ≤ s.params.txsCapacity) : TxInv (setWork (firstSample s.work) s) := by
  obtain ⟨hb, hf, -⟩ := (encodeChecks_iff s).1 hok
  have hbits : 0 < s.frameBits := by have := frameBits_bounds hf; omega
  exact ⟨hok, hfits, Nat.zero_le _, fun _ => ⟨hbits, samplesPerBit_pos hb⟩⟩

/-- A launched `ENCODE` ends at once where the atomic command raises, and otherwise after its loops. -/
theorem start_encode_leads (hp : s.params.ok = true) (hh : s.host = []) :
    ∃ t, exec .encode s = .next t ∧ Leads (start .encode (accepted .encode s)) t := by
  rcases exec_encode_cases s with ⟨hok, hfits, he⟩ | ⟨hok, hfull, he⟩ | ⟨hbad, he⟩
  · have hok := (encodeChecks_iff s).2 hok
    have hzero : txIndex (setWork (firstSample s.work) s) = 0 := by simp [txIndex, firstSample]
    rw [start_encode_checked hok hfits]
    exact ⟨_, he, encoding_leads hp hh (firstSample_txInv hok hfits) hzero⟩
  · have hok := (encodeChecks_iff s).2 hok
    rw [start, encodeWith_alloc (s := accepted .encode s) _ hok hfull, endIfRaised_raise (by simp)]
    exact ⟨_, he, .refl⟩
  · have hbad := mt (encodeChecks_iff s).1 hbad
    rw [start, encodeWith_invalid (s := accepted .encode s) _ hbad, endIfRaised_raise (by simp)]
    exact ⟨_, he, .refl⟩

/-- Settles O44: `ENCODE` after `n` samples has written the first `n` of the stream. -/
theorem encodeLoopsAgreeWithStream : Obligations.EncodeLoopsAgreeWithStream := by
  intro s hp hb hh
  obtain ⟨t, he, hleads⟩ := start_encode_leads (s := { s with host := [] }) hp rfl
  obtain ⟨k, hk⟩ := Leads.exists_run (.head (step_launch hp hb hh) hleads)
  exact ⟨k, t, he, hk⟩

end Sys2Proof.Machine
end

section
/-! PROOFS. The machine of `DECODE`, run turn by turn, ends in the very state of the atomic command (43_modem_stream.md
R126): the rows of a character in a row do what one iteration of the loop does. -/

namespace Sys2Proof.Machine

variable {s : State} {w : Work} {out : List Byte} {pos : Nat} {xc : Word}

/-- A `DECODE` in state `x` at position `pos`, with the bytes `out` behind it. -/
def decoding (s : State) (x : RxState) (w : Work) (out : List Byte) (pos : Nat) (xc : Word) : State :=
  { s with
    status   := ⟨true, false, false, .none⟩
    running  := some .decode
    spb      := BitVec.ofNat 32 s.samplesPerBit
    xcount   := xc
    rxbCount := BitVec.ofNat 32 out.length
    rxpos    := BitVec.ofNat 32 pos
    mem      := s.mem.storeBytes .rxb 0 out
    rxState  := x
    work     := w }

/-- The end of the machine is what the atomic command leaves. -/
theorem complete_decoding (x : RxState) : complete (decoding s x w out pos xc) = decodeLeaves s ⟨out, pos, false, xc⟩ :=
  rfl

theorem complete_setTrunc_decoding (x : RxState) :
    complete (setTrunc true (decoding s x w out pos xc)) = decodeLeaves s ⟨out, pos, true, xc⟩ :=
  rfl

theorem classifyAt_decoding (x : RxState) (p : Nat) : classifyAt (decoding s x w out pos xc) p = classifyAt s p := rfl

theorem crossingsAt_decoding (x : RxState) (p : Nat) :
    crossingsAt (decoding s x w out pos xc) p = crossingsAt s p := rfl

theorem windowPos_succ (s : State) (pos k : Nat) : windowPos s pos (k + 1) = windowPos s pos k + s.samplesPerBit := by
  rw [windowPos, windowPos, Nat.add_one_mul, Nat.add_assoc]

theorem rxpos_decoding (x : RxState) (hpos : pos ≤ s.rxsCount.toNat) :
    (decoding s x w out pos xc).rxpos.toNat = pos := rxpos_fits hpos

/-- The working registers after a window was classified. -/
def counted (s : State) (pos : Nat) (w : Work) : Work := { w with wi := s.samplesPerBit, xc := crossingsAt s pos }

section Turns

variable (hpos : pos ≤ s.rxsCount.toNat)
include hpos

/-! ### Between characters -/

theorem rxStep_decoding_exhausted (h : s.rxsCount.toNat < pos + s.charLen) :
    rxStep (decoding s .searching w out pos xc) = decodeLeaves s ⟨out, pos, false, xc⟩ := by
  rw [rxStep_exhausted rfl (by rwa [rxpos_decoding _ hpos]), complete_decoding]

theorem rxStep_decoding_full (h : pos + s.charLen ≤ s.rxsCount.toNat)
    (hcount : (BitVec.ofNat 32 out.length).toNat = s.params.cap) :
    rxStep (decoding s .searching w out pos xc) = decodeLeaves s ⟨out, pos, true, xc⟩ := by
  rw [rxStep_full rfl (by rwa [rxpos_decoding _ hpos]) hcount, complete_setTrunc_decoding]

theorem rxStep_decoding_rejected (h : pos + s.charLen ≤ s.rxsCount.toNat)
    (hroom : (BitVec.ofNat 32 out.length).toNat ≠ s.params.cap) (hc : classifyAt s pos = true) :
    rxStep (decoding s .searching w out pos xc) =
      decoding s .searching (counted s pos w) out (pos + 1) (BitVec.ofNat 32 (crossingsAt s pos)) := by
  rw [rxStep_candidate rfl (by rwa [rxpos_decoding _ hpos]) hroom, countWindow, rxpos_decoding _ hpos,
    classifyAt_decoding, crossingsAt_decoding, if_pos hc]
  rfl

theorem rxStep_decoding_confirmed (h : pos + s.charLen ≤ s.rxsCount.toNat)
    (hroom : (BitVec.ofNat 32 out.length).toNat ≠ s.params.cap) (hc : classifyAt s pos = false) :
    rxStep (decoding s .searching w out pos xc) =
      decoding s .startConfirmed (counted s pos w) out pos (BitVec.ofNat 32 (crossingsAt s pos)) := by
  rw [rxStep_candidate rfl (by rwa [rxpos_decoding _ hpos]) hroom, countWindow, rxpos_decoding _ hpos,
    classifyAt_decoding, crossingsAt_decoding, if_neg (by simp [hc])]
  rfl

/-! ### Inside a character -/

theorem rxStep_decoding_startConfirmed : rxStep (decoding s .startConfirmed w out pos xc) =
    decoding s .data { w with shift := 0#8, kbit := 0#4 } out (pos + s.samplesPerBit) xc := by
  rw [rxStep_startConfirmed rfl, rxpos_decoding _ hpos]
  rfl

theorem dataTurn_decoding (x : RxState) (w' : Work) : dataTurn x w' (decoding s .data w out pos xc) =
    decoding s x w' out (pos + s.samplesPerBit) (BitVec.ofNat 32 (crossingsAt s pos)) := by
  rw [dataTurn, rxpos_decoding _ hpos, crossingsAt_decoding]
  rfl

theorem dataWork_decoding : dataWork (decoding s .data w out pos xc) =
    shiftIn (classifyAt s pos) (counted s pos w) := by
  rw [dataWork, rxpos_decoding _ hpos, classifyAt_decoding, crossingsAt_decoding]
  rfl

theorem rxStep_decoding_parity : rxStep (decoding s .parity w out pos xc) =
    decoding s .stop { w with jstop := 0#8 } out (pos + s.samplesPerBit) xc := by
  rw [rxStep_parity rfl, rxpos_decoding _ hpos]
  rfl

theorem stopTurn_decoding (x : RxState) : stopTurn x (decoding s .stop w out pos xc) =
    decoding s x { w with jstop := w.jstop + 1#8 } out (pos + s.samplesPerBit) xc := by
  rw [stopTurn, rxpos_decoding _ hpos]
  rfl

end Turns

theorem memory_storeBytes_snoc (m : Memory) (vs : List Byte) (v : Byte) :
    (m.storeBytes .rxb 0 vs).storeBytes .rxb vs.length [v] = m.storeBytes .rxb 0 (vs ++ [v]) := by
  have h := cells_store_snoc m.rxb 0 vs v
  rw [Nat.zero_add] at h
  simp only [Memory.storeBytes, h]

/-- The last stop window emits the byte in `SHIFT`. -/
theorem rxStep_decoding_emit (hpos : pos ≤ s.rxsCount.toNat) (hout : (BitVec.ofNat 32 out.length).toNat = out.length)
    (hlast : s.stopBits ≤ (w.jstop + 1#8).toNat) : rxStep (decoding s .stop w out pos xc) =
      decoding s .searching { w with jstop := w.jstop + 1#8 } (out ++ [w.shift]) (pos + s.samplesPerBit) xc := by
  rcases rxStep_stop_cases (s := decoding s .stop w out pos xc) rfl with ⟨hmore, -⟩ | ⟨-, he⟩
  · exact absurd hlast (Nat.not_le_of_lt hmore)
  · have hcount : (decoding s .stop w out pos xc).rxbCount.toNat = out.length := hout
    rw [he, hcount, stopTurn_decoding hpos, writeBytes, decoding.eq_1 s .searching _ (out ++ [w.shift]),
      ← memory_storeBytes_snoc, List.length_append]
    rfl

/-! ### A whole character -/

/-- `SHIFT` holds the bits of the first `k` data windows of the character at `pos`, and `KBIT` is `k`. -/
structure ShiftHolds (s : State) (pos k : Nat) (w : Work) : Prop where
  kbit : w.kbit.toNat = k
  shift : ∀ j, w.shift.getLsbD j = (decide (j < k) && classifyAt s (windowPos s pos (j + 1)))

variable {k : Nat}

theorem ShiftHolds.zero : ShiftHolds s pos 0 { w with shift := 0#8, kbit := 0#4 } :=
  ⟨rfl, fun j => by simp⟩

theorem ShiftHolds.shift_lt (h : ShiftHolds s pos k w) : w.shift.toNat < 2 ^ w.kbit.toNat := by
  refine Nat.lt_pow_two_of_testBit _ fun j hj => ?_
  rw [BitVec.testBit_toNat, h.shift, decide_eq_false (by rw [h.kbit] at hj; omega), Bool.false_and]

theorem ShiftHolds.kbit_next (h : ShiftHolds s pos k w) (hk : k < 8) : (w.kbit + 1#4).toNat = k + 1 := by
  rw [BitVec.toNat_add, h.kbit]
  exact Nat.mod_eq_of_lt (by simp; omega)

/-- A turn in `DATA` shifts in the bit of the next data window. -/
theorem ShiftHolds.next (h : ShiftHolds s pos k w) (hk : k < 8) (p : Nat) : ShiftHolds s pos (k + 1)
    (shiftIn (classifyAt s (windowPos s pos (k + 1))) (counted s p w)) := by
  refine ⟨h.kbit_next hk, fun j => ?_⟩
  have hkbit : (counted s p w).kbit.toNat = k := h.kbit
  rw [shiftIn_getLsbD _ (counted s p w) h.shift_lt (by rwa [hkbit]), hkbit]
  by_cases hj : j = k
  · simp [hj]
  · have hlt : j < k + 1 ↔ j < k := by omega
    simp [hj, counted, h.shift, hlt]

/-- After the last data window `SHIFT` is the byte of the character (42_frame_codec.md R109). -/
theorem ShiftHolds.byte (h : ShiftHolds s pos k w) (hk : s.dataBits = k) :
    w.shift = BitVec.ofNat 8 (frameByte s pos) :=
  (frameByte_eq_of_bits fun j _ => hk ▸ h.shift j).symm

section Character

variable (hp : s.params.ok = true) (hh : s.host = [])
include hp hh

theorem step_decoding (x : RxState) (w : Work) (out : List Byte) (pos : Nat) (xc : Word) :
    step (decoding s x w out pos xc) = .next (rxStep (decoding s x w out pos xc)) := by
  rw [step_coreTurn (s := decoding s x w out pos xc) hp hh, coreTurn_decode rfl rfl]

theorem leads_of_rxStep {x : RxState} {t : State} (h : rxStep (decoding s x w out pos xc) = t) :
    Leads (decoding s x w out pos xc) t :=
  .single (h ▸ step_decoding hp hh x w out pos xc)

variable (hin : pos + s.charLen ≤ s.rxsCount.toNat)
include hin

omit hp hh in
theorem windowPos_le (hk : k ≤ s.frameBits) : windowPos s pos k ≤ s.rxsCount.toNat :=
  Nat.le_trans (Nat.add_le_add_left (Nat.mul_le_mul_right _ hk) pos) hin

/-- The data windows from window `k + 1` on, and the parity window where there is one. -/
theorem data_leads (hf : s.fmtOk = true) (hk : k < s.dataBits) (hw : ShiftHolds s pos k w) : ∃ w',
    w'.shift = BitVec.ofNat 8 (frameByte s pos) ∧ w'.jstop = 0#8 ∧
    Leads (decoding s .data w out (windowPos s pos (k + 1)) xc)
      (decoding s .stop w' out (windowPos s pos (1 + s.dataBits + s.parityFlag))
        (BitVec.ofNat 32 (crossingsAt s (windowPos s pos s.dataBits)))) := by
  obtain ⟨-, hdata, hstop⟩ := fmtOk_bounds hf
  have hbits : s.frameBits = 1 + s.dataBits + s.parityFlag + s.stopBits := rfl
  have hflag : s.parityFlag = 0 ∨ s.parityFlag = 1 := by
    unfold State.parityFlag
    split <;> simp
  induction hm : s.dataBits - k generalizing k w xc with
  | zero => omega
  | succ m ih =>
    have hpos := windowPos_le hin (show k + 1 ≤ s.frameBits by omega)
    have hkbit := hw.kbit_next (by omega)
    have hnext := hw.next (by omega) (windowPos s pos (k + 1))
    rcases rxStep_data_cases (s := decoding s .data w out (windowPos s pos (k + 1)) xc) rfl with
      ⟨hmore, he⟩ | ⟨hlast, hparity, he⟩ | ⟨hlast, hparity, he⟩ <;>
      rw [dataTurn_decoding hpos, dataWork_decoding hpos, ← windowPos_succ] at he
    · have hmore' : k + 1 < s.dataBits := hkbit ▸ hmore
      obtain ⟨w', hshift, hjstop, hleads⟩ := ih hmore' hnext (by omega)
      exact ⟨w', hshift, hjstop, (leads_of_rxStep hp hh he).trans hleads⟩
    · have hkd : s.dataBits = k + 1 := Nat.le_antisymm (hkbit ▸ hlast) hk
      have hone : s.parityFlag = 1 := hparity
      have hskip := windowPos_le hin (show k + 1 + 1 ≤ s.frameBits by omega)
      rw [(by omega : 1 + s.dataBits + s.parityFlag = k + 1 + 1 + 1), windowPos_succ s pos (k + 1 + 1), hkd]
      refine ⟨_, ?_, ?_, (leads_of_rxStep hp hh he).trans (leads_of_rxStep hp hh (rxStep_decoding_parity hskip))⟩
      · exact hnext.byte hkd
      · rfl
    · have hkd : s.dataBits = k + 1 := Nat.le_antisymm (hkbit ▸ hlast) hk
      have hzero : s.parityFlag = 0 := hflag.resolve_right hparity
      rw [(by omega : 1 + s.dataBits + s.parityFlag = k + 1 + 1), hkd]
      refine ⟨_, ?_, ?_, leads_of_rxStep hp hh he⟩
      · exact hnext.byte hkd
      · rfl

/-- The stop windows from window `j` of them on; the last one emits the byte. -/
theorem stop_leads {j : Nat} (hout : (BitVec.ofNat 32 out.length).toNat = out.length) (hj : j < s.stopBits)
    (hw : w.jstop.toNat = j) : ∃ w',
    Leads (decoding s .stop w out (windowPos s pos (1 + s.dataBits + s.parityFlag + j)) xc)
      (decoding s .searching w' (out ++ [w.shift]) (pos + s.charLen) xc) := by
  have hbits : s.frameBits = 1 + s.dataBits + s.parityFlag + s.stopBits := rfl
  induction hm : s.stopBits - j generalizing j w with
  | zero => omega
  | succ m ih =>
    have hpos := windowPos_le hin (show 1 + s.dataBits + s.parityFlag + j ≤ s.frameBits by omega)
    have hnext : (w.jstop + 1#8).toNat = j + 1 := hw ▸ jstop_succ (s := setWork w s) (hw ▸ hj :)
    rcases Nat.lt_or_ge (j + 1) s.stopBits with hmore | hlast
    · rcases rxStep_stop_cases (s := decoding s .stop w out _ xc) rfl with ⟨-, he⟩ | ⟨hlast, -⟩
      · rw [stopTurn_decoding hpos, ← windowPos_succ] at he
        obtain ⟨w', hleads⟩ := ih (w := { w with jstop := w.jstop + 1#8 }) hmore hnext (by omega)
        exact ⟨w', (leads_of_rxStep hp hh he).trans hleads⟩
      · exact absurd (hnext ▸ hlast :) (Nat.not_le_of_lt hmore)
    · have he := rxStep_decoding_emit (w := w) (xc := xc) hpos hout (by omega)
      have hend : windowPos s pos (1 + s.dataBits + s.parityFlag + j + 1) = pos + s.charLen := by
        rw [windowPos, State.charLen, hbits, (by omega : s.stopBits = j + 1), Nat.add_assoc _ j 1]
      rw [← windowPos_succ, hend] at he
      exact ⟨_, leads_of_rxStep hp hh he⟩

/-- An accepted candidate: the rows of a whole character do what one iteration of the loop does. -/
theorem character_leads (hf : s.fmtOk = true) (hout : (BitVec.ofNat 32 out.length).toNat = out.length)
    (hroom : out.length ≠ s.params.cap) (hc : classifyAt s pos = false) : ∃ w',
    Leads (decoding s .searching w out pos xc)
      (decoding s .searching w' (out ++ [BitVec.ofNat 8 (frameByte s pos)]) (pos + s.charLen)
        (BitVec.ofNat 32 (crossingsAt s (windowPos s pos s.dataBits)))) := by
  obtain ⟨hdata, -, hstop⟩ := fmtOk_bounds hf
  have hpos : pos ≤ s.rxsCount.toNat := by omega
  have hconfirm := leads_of_rxStep hp hh (rxStep_decoding_confirmed (w := w) (xc := xc) hpos hin (by rwa [hout]) hc)
  have hstart := leads_of_rxStep hp hh (rxStep_decoding_startConfirmed (w := counted s pos w) (out := out)
    (xc := BitVec.ofNat 32 (crossingsAt s pos)) hpos)
  obtain ⟨w', hshift, hjstop, hbits⟩ := data_leads (out := out) (xc := BitVec.ofNat 32 (crossingsAt s pos)) hp hh hin hf
    hdata (ShiftHolds.zero (w := counted s pos w))
  obtain ⟨w'', hend⟩ := stop_leads (xc := BitVec.ofNat 32 (crossingsAt s (windowPos s pos s.dataBits))) hp hh hin hout
    hstop (congrArg BitVec.toNat hjstop)
  rw [windowPos, Nat.zero_add, Nat.one_mul] at hbits
  rw [hshift] at hend
  exact ⟨w'', ((hconfirm.trans hstart).trans hbits).trans hend⟩

/-! ### The whole pass -/

omit hin in
/-- From between two characters on, the rows do what the rest of the loop does. -/
theorem loop_leads (hb : s.baudOk = true) (hf : s.fmtOk = true) (n : Nat) (hpos : pos ≤ s.rxsCount.toNat)
    (hn : s.rxsCount.toNat + 1 ≤ pos + n) (hcap : out.length ≤ s.params.cap) :
    Leads (decoding s .searching w out pos xc) (decodeLeaves s (decodeLoop s n pos out xc)) := by
  have hL := charLen_pos hb hf
  induction n generalizing w out pos xc with
  | zero => omega
  | succ n ih =>
    have hout := cap_fits hp hcap
    rw [decodeLoop_succ]
    rcases Nat.lt_or_ge s.rxsCount.toNat (pos + s.charLen) with hend | hin
    · rw [if_pos hend]
      exact leads_of_rxStep hp hh (rxStep_decoding_exhausted hpos hend)
    · rw [if_neg (Nat.not_lt_of_le hin)]
      by_cases hfull : out.length = s.params.cap
      · rw [if_pos hfull]
        exact leads_of_rxStep hp hh (rxStep_decoding_full hpos hin (hout.trans hfull))
      · rw [if_neg hfull]
        cases hc : classifyAt s pos with
        | true =>
          rw [if_pos rfl]
          have hstep := rxStep_decoding_rejected (w := w) (xc := xc) hpos hin (by rwa [hout]) hc
          exact (leads_of_rxStep hp hh hstep).trans (ih (by omega) (by omega) hcap)
        | false =>
          rw [if_neg (by simp)]
          obtain ⟨w', hleads⟩ := character_leads (w := w) (xc := xc) hp hh hin hf hout hfull hc
          exact hleads.trans (ih hin (by omega) (by rw [List.length_append]; exact Nat.lt_of_le_of_ne hcap hfull))

end Character

theorem decodeChecks_iff (s : State) : (s.baudOk && s.fmtOk && s.rxsFits) = true ↔
    s.baudOk = true ∧ s.fmtOk = true ∧ s.rxsCount.toNat ≤ s.params.rxsCapacity := by
  simp only [Bool.and_eq_true, rxsFits_iff, and_assoc]

theorem decodeWith_checked (go : State → State) (hok : (s.baudOk && s.fmtOk && s.rxsFits) = true) :
    decodeWith go s = go (latchSpb (setRxpos 0 (setRxbCount 0 s))) := by
  rw [decodeWith, if_pos hok]

theorem decodeWith_invalid (go : State → State) (hbad : ¬ (s.baudOk && s.fmtOk && s.rxsFits) = true) :
    decodeWith go s = raise .invalid (latchSpbOnInvalid (setRxpos 0 (setRxbCount 0 s))) := by
  rw [decodeWith, if_neg hbad]

theorem start_decode_checked (hok : (s.baudOk && s.fmtOk && s.rxsFits) = true) :
    start .decode (accepted .decode s) = decoding s .searching s.work [] 0 s.xcount := by
  have hempty : s.mem.storeBytes .rxb 0 [] = s.mem := by rw [Memory.storeBytes, cells_store_nil_zero]
  rw [start, decodeWith_checked (s := accepted .decode s) _ hok, endIfRaised_of_none rfl, decoding, hempty]
  rfl

/-- A launched `DECODE` ends at once where the atomic command raises, and otherwise after its machine has run. -/
theorem start_decode_leads (hp : s.params.ok = true) (hh : s.host = []) :
    ∃ t, exec .decode s = .next t ∧ Leads (start .decode (accepted .decode s)) t := by
  rcases exec_decode_cases s with ⟨hok, he⟩ | ⟨hbad, he⟩
  · rw [start_decode_checked ((decodeChecks_iff s).2 hok)]
    obtain ⟨hb, hf, -⟩ := hok
    exact ⟨_, he, loop_leads hp hh hb hf _ (Nat.zero_le _) (by omega) (Nat.zero_le _)⟩
  · have hbad := mt (decodeChecks_iff s).1 hbad
    rw [start, decodeWith_invalid (s := accepted .decode s) _ hbad, endIfRaised_raise (by simp)]
    exact ⟨_, he, .refl⟩

/-- Settles O43: between two characters the machine is where the loop is. -/
theorem decodeMachineAgreesWithLoop : Obligations.DecodeMachineAgreesWithLoop := by
  intro s hp hb hh
  obtain ⟨t, he, hleads⟩ := start_decode_leads (s := { s with host := [] }) hp rfl
  obtain ⟨k, hk⟩ := Leads.exists_run (.head (step_launch hp hb hh) hleads)
  exact ⟨k, t, he, hk⟩

end Sys2Proof.Machine
end

section
/-! PROOFS. Errors (60_exceptions.md R140 to R151): that none is sticky, which code each command word ends with, and
what a command that raises leaves. -/

namespace Sys2Proof.Machine

variable {s t : State}

/-! ### No error is sticky -/

/-- Acceptance overwrites the whole status (43_modem_stream.md R120). -/
theorem accept_withStatus (s : State) (st : Status) : accept { s with status := st } = accept s := rfl

/-- Settles O17: every command begins with acceptance, which overwrites what the status was. -/
theorem noErrorIsSticky : Obligations.NoErrorIsSticky := by
  intro i s st
  rw [exec_eq_command, exec_eq_command, command, command, accept_withStatus]

/-! ### The code of each command word -/

/-! A command tests its configuration first, and next the room or the samples it needs (60_exceptions.md R148). -/

theorem code_of_bad_config {config full : Prop} [Decidable config] [Decidable full] (e : ErrCode) (hc : ¬ config) :
    ErrCode.invalid = if ¬ config then .invalid else if full then e else .none :=
  (if_pos hc).symm

theorem code_of_overrun {config full : Prop} [Decidable config] [Decidable full] (e : ErrCode) (hc : config)
    (hfull : full) : e = if ¬ config then .invalid else if full then e else .none := by
  rw [if_neg (not_not_intro hc), if_pos hfull]

theorem code_of_fitting {config full : Prop} [Decidable config] [Decidable full] (e : ErrCode) (hc : config)
    (hfits : ¬ full) : ErrCode.none = if ¬ config then .invalid else if full then e else .none := by
  rw [if_neg (not_not_intro hc), if_neg hfits]

theorem writeCmd_of_decode_error {w : Word} {e : DecodeError} (hb : s.status.busy = false)
    (hd : decode w = .error e) : writeCmd w s = .next (illegalCommand s) := by
  simp [writeCmd, hb, hd]

/-- Settles O15: each outcome of a command is one branch of its chain of checks. -/
theorem errorCodeOfEachCommandWord : Obligations.ErrorCodeOfEachCommandWord := by
  intro w s hb
  cases hd : decode w with
  | error e => exact ⟨_, writeCmd_of_decode_error hb hd, rfl⟩
  | ok i =>
    rw [writeCmd_idle hb hd]
    cases i with
    | nop => exact ⟨_, exec_nop s, rfl⟩
    | encode =>
      rw [← encodeTotal_eq]
      rcases exec_encode_cases s with ⟨hok, hfit, he⟩ | ⟨hok, hfull, he⟩ | ⟨hbad, he⟩
      · exact ⟨_, he, code_of_fitting .alloc hok (Nat.not_lt_of_le hfit)⟩
      · exact ⟨_, he, code_of_overrun .alloc hok hfull⟩
      · exact ⟨_, he, code_of_bad_config .alloc hbad⟩
    | decode =>
      rcases exec_decode_cases s with ⟨hok, he⟩ | ⟨hbad, he⟩
      · exact ⟨_, he, (if_neg (not_not_intro hok)).symm⟩
      · exact ⟨_, he, (if_pos hbad).symm⟩
    | frameEnc =>
      rcases exec_frameEnc_cases s with ⟨hok, hfit, he⟩ | ⟨hok, hfull, he⟩ | ⟨hbad, he⟩
      · exact ⟨_, he, code_of_fitting .alloc hok (Nat.not_lt_of_le hfit)⟩
      · exact ⟨_, he, code_of_overrun .alloc hok hfull⟩
      · have hnot : ¬ (s.baudOk = true ∧ s.fmtOk = true) := by rwa [not_and_or, Bool.not_eq_true, Bool.not_eq_true]
        exact ⟨_, he, code_of_bad_config .alloc hnot⟩
    | frameDec =>
      rcases exec_frameDec_cases s with ⟨hok, hfit, -, he⟩ | ⟨hok, hfit, -, he⟩ | ⟨hok, hpast, he⟩ | ⟨hbad, he⟩
      · exact ⟨_, he, code_of_fitting .range hok (Nat.not_lt_of_le hfit)⟩
      · exact ⟨_, he, code_of_fitting .range hok (Nat.not_lt_of_le hfit)⟩
      · exact ⟨_, he, code_of_overrun .range hok hpast⟩
      · exact ⟨_, he, code_of_bad_config .range hbad⟩
    | synth =>
      rcases exec_synth_cases s with ⟨hok, hfit, he⟩ | ⟨hok, hfull, he⟩ | ⟨hbad, he⟩
      · exact ⟨_, he, code_of_fitting .alloc hok (Nat.not_lt_of_le hfit)⟩
      · exact ⟨_, he, code_of_overrun .alloc hok hfull⟩
      · exact ⟨_, he, code_of_bad_config .alloc (Bool.not_eq_true _ ▸ hbad)⟩
    | classify =>
      rcases exec_classify_cases s with ⟨hok, hfit, he⟩ | ⟨hok, hpast, he⟩ | ⟨hbad, he⟩
      · exact ⟨_, he, code_of_fitting .range hok (Nat.not_lt_of_le hfit)⟩
      · exact ⟨_, he, code_of_overrun .range hok hpast⟩
      · exact ⟨_, he, code_of_bad_config .range hbad⟩
    | parity =>
      rcases exec_parity_cases s with ⟨m, hm, he⟩ | ⟨heven, hodd, he⟩
      · exact ⟨_, he, (if_pos (hm.imp And.left And.left)).symm⟩
      · exact ⟨_, he, (if_neg (not_or_intro heven hodd)).symm⟩

end Sys2Proof.Machine
end

section
/-! PROOFS. The complete effect of an error (60_exceptions.md R149): whichever command raises, the state it leaves is one
shape, with the code and the value of `SPB` open. -/

namespace Sys2Proof.Machine

variable {s t : State} {d : Except DecodeError Instr} {e : ErrCode}

/-- What a word that raises `e` leaves: `v` in `SPB`, and the result registers empty that `ENCODE` and `DECODE` empty
before their checks (43_modem_stream.md R123, R127). -/
def raised (d : Except DecodeError Instr) (e : ErrCode) (v : Word) (s : State) : State :=
  complete (raise e { accept s with
    spb := v
    txsCount := if d = .ok .encode then 0#32 else s.txsCount
    rxbCount := if d = .ok .decode then 0#32 else s.rxbCount
    rxpos := if d = .ok .decode then 0#32 else s.rxpos })

/-- The codes that a decoded word can raise, each with what `SPB` holds then (60_exceptions.md R149; log 7): `PARITY`
and a reserved word check no rate. -/
inductive RaiseLatches (s : State) (d : Except DecodeError Instr) : ErrCode → Word → Prop
  | reserved : RaiseLatches s d .illCmd s.spb
  | parity (hd : d = .ok .parity) : RaiseLatches s d .invalid s.spb
  | invalid (hd : d ≠ .ok .parity) : RaiseLatches s d .invalid (latchSpbOnInvalid s).spb
  | alloc (hd : d ≠ .ok .parity) : RaiseLatches s d .alloc (BitVec.ofNat 32 s.samplesPerBit)
  | range (hd : d ≠ .ok .parity) : RaiseLatches s d .range (BitVec.ofNat 32 s.samplesPerBit)

/-- A word that ends with an error ends as `raised` says. -/
def EndsRaised (d : Except DecodeError Instr) (s t : State) : Prop :=
  ∃ e v, RaiseLatches s d e v ∧ t = raised d e v s

/-- Of the outcomes of a command, those with a code are of this shape. -/
theorem exec_endsRaised {i : Instr} (h : exec i s = .next t) (herr : t.status.err ≠ .none) :
    EndsRaised (.ok i) s t := by
  have hend : ∀ {u}, exec i s = .next u → t = u := fun he => Host.Outcome.next.inj (h.symm.trans he)
  cases i with
  | nop => exact absurd (hend (exec_nop s) ▸ rfl) herr
  | encode =>
    rcases exec_encode_cases s with ⟨-, -, he⟩ | ⟨-, -, he⟩ | ⟨-, he⟩ <;> have ht := hend he
    · exact absurd (ht ▸ rfl) herr
    · exact ⟨_, _, .alloc nofun, ht⟩
    · exact ⟨_, _, .invalid nofun, ht⟩
  | decode =>
    rcases exec_decode_cases s with ⟨-, he⟩ | ⟨-, he⟩ <;> have ht := hend he
    · exact absurd (ht ▸ rfl) herr
    · exact ⟨_, _, .invalid nofun, ht⟩
  | frameEnc =>
    rcases exec_frameEnc_cases s with ⟨-, -, he⟩ | ⟨-, -, he⟩ | ⟨-, he⟩ <;> have ht := hend he
    · exact absurd (ht ▸ rfl) herr
    · exact ⟨_, _, .alloc nofun, ht⟩
    · exact ⟨_, _, .invalid nofun, ht⟩
  | frameDec =>
    rcases exec_frameDec_cases s with ⟨-, -, -, he⟩ | ⟨-, -, -, he⟩ | ⟨-, -, he⟩ | ⟨-, he⟩ <;> have ht := hend he
    · exact absurd (ht ▸ rfl) herr
    · exact absurd (ht ▸ rfl) herr
    · exact ⟨_, _, .range nofun, ht⟩
    · exact ⟨_, _, .invalid nofun, ht⟩
  | synth =>
    rcases exec_synth_cases s with ⟨-, -, he⟩ | ⟨-, -, he⟩ | ⟨-, he⟩ <;> have ht := hend he
    · exact absurd (ht ▸ rfl) herr
    · exact ⟨_, _, .alloc nofun, ht⟩
    · exact ⟨_, _, .invalid nofun, ht⟩
  | classify =>
    rcases exec_classify_cases s with ⟨-, -, he⟩ | ⟨-, -, he⟩ | ⟨-, he⟩ <;> have ht := hend he
    · exact absurd (ht ▸ rfl) herr
    · exact ⟨_, _, .range nofun, ht⟩
    · exact ⟨_, _, .invalid nofun, ht⟩
  | parity =>
    rcases exec_parity_cases s with ⟨m, -, he⟩ | ⟨-, -, he⟩ <;> have ht := hend he
    · exact absurd (ht ▸ rfl) herr
    · exact ⟨_, _, .parity rfl, ht⟩

theorem writeCmd_endsRaised {w : Word} (hb : s.status.busy = false) (h : writeCmd w s = .next t)
    (herr : t.status.err ≠ .none) : EndsRaised (decode w) s t := by
  cases hd : decode w with
  | error e =>
    rw [writeCmd_of_decode_error hb hd] at h
    exact ⟨_, _, .reserved, (Host.Outcome.next.inj h).symm⟩
  | ok i =>
    rw [writeCmd_idle hb hd] at h
    exact exec_endsRaised h herr

/-! ### What an error leaves -/

/-! What `SPB` holds, by the code. -/

section Spb

variable {v : Word} (h : RaiseLatches s d e v)
include h

theorem RaiseLatches.spb_of_overrun (he : e = .alloc ∨ e = .range) : v = BitVec.ofNat 32 s.samplesPerBit := by
  cases h with
  | alloc | range => rfl
  | reserved | parity | invalid => simp at he

theorem RaiseLatches.spb_of_invalid (he : e = .invalid) (hd : d ≠ .ok .parity) : v = (latchSpbOnInvalid s).spb := by
  cases h with
  | invalid => rfl
  | parity hpar => exact absurd hpar hd
  | reserved | alloc | range => cases he

theorem RaiseLatches.spb_of_unchecked (he : d = .ok .parity ∨ e = .illCmd) : v = s.spb := by
  cases h with
  | reserved | parity => rfl
  | invalid hd | alloc hd | range hd => simp [hd] at he

end Spb

theorem raised_ended (v : Word) : Ended (raised d e v s) e false := ⟨rfl, rfl, rfl⟩

theorem raised_hostSideKept (v : Word) : HostSideKept s (raised d e v s) :=
  ⟨rfl, rfl, rfl, rfl, rfl, rfl, fun _ => rfl, fun _ => rfl, rfl, rfl, rfl⟩

/-- Settles O16: the shape fixes everything but `SPB`, which goes with the code. -/
theorem errorLeavesEverythingElse : Obligations.ErrorLeavesEverythingElse := by
  intro w s t hp hb h herr
  obtain ⟨e, v, hlatch, rfl⟩ := writeCmd_endsRaised hb h herr
  refine ⟨raised_ended v, raised_hostSideKept v, ⟨rfl, rfl⟩, fun _ => rfl, fun _ => rfl, rfl, rfl, rfl, fun he => ?_,
    fun he hd => spbAfterInvalid_of_latch hp (hlatch.spb_of_invalid he hd), hlatch.spb_of_unchecked⟩
  exact (congrArg BitVec.toNat (hlatch.spb_of_overrun he)).trans (samplesPerBit_fits hp)

end Sys2Proof.Machine
end

section
/-! PROOFS. The two directions do not touch each other (60_exceptions.md R153): the result of `ENCODE` and of `DECODE` over
two states that agree on the configuration and on the valid part of the command's own input. -/

namespace Sys2Proof.Machine

variable {s t : State}

/-! ### Written elements -/

/-- An element of a block just written does not depend on the state it was written to. -/
theorem readSample_writeSamples_any {vs : List Sample} {a : Nat} (h : a < vs.length) :
    readSample (writeSamples .txs 0 vs t) .txs a = readSample (writeSamples .txs 0 vs s) .txs a := by
  simp [h]

theorem readByte_writeBytes_any {vs : List Byte} {a : Nat} (h : a < vs.length) :
    readByte (writeBytes .rxb 0 vs t) .rxb a = readByte (writeBytes .rxb 0 vs s) .rxb a := by
  simp [h]

/-- A register holds at most the number written to it. -/
theorem lt_of_lt_register {a n : Nat} (h : a < (BitVec.ofNat 32 n).toNat) : a < n :=
  Nat.lt_of_lt_of_le h (BitVec.toNat_ofNat .. ▸ Nat.mod_le ..)

theorem complete_status_congr (h : t.status = s.status) : (complete t).status = (complete s).status := by
  rw [complete_status, complete_status, h]

/-! ### `ENCODE` -/

/-- Two states that agree on what the transmit side reads: the configuration and the valid part of TXB. -/
structure SameTransmitInput (s t : State) : Prop where
  params : t.params = s.params
  format : t.format = s.format
  baud : t.baud = s.baud
  txbCount : t.txbCount = s.txbCount
  bytes : ∀ a, a < s.txbCount.toNat → readByte t .txb a = readByte s .txb a

/-- Two states that agree on what the transmit side answers: the status and the valid part of TXS. -/
structure SameTransmitResult (s t : State) : Prop where
  status : t.status = s.status
  txsCount : t.txsCount = s.txsCount
  samples : ∀ a, a < s.txsCount.toNat → readSample t .txs a = readSample s .txs a

theorem frameEnc_congr (hp : t.params = s.params) (hf : t.format = s.format) (hb : t.baud = s.baud) (b : Byte) :
    frameEnc t b = frameEnc s b := by
  have hbits : charBits t b = charBits s b := by
    unfold charBits parityBits State.parityMode State.parityCode State.dataBits State.stopBits
    rw [hf]
  rw [frameEnc, frameEnc, hbits, hp, samplesPerBit_congr hp hb]

theorem SameTransmitInput.payload (h : SameTransmitInput s t) : payload t = payload s := by
  rw [Machine.payload, Machine.payload, h.txbCount]
  exact List.map_congr_left fun k hk => by rw [Nat.zero_add, h.bytes k (List.mem_range.1 hk)]

theorem SameTransmitInput.stream (h : SameTransmitInput s t) :
    encodeStream t (Machine.payload t) = encodeStream s (Machine.payload s) := by
  rw [h.payload, encodeStream, encodeStream, funext (frameEnc_congr h.params h.format h.baud)]

theorem SameTransmitInput.total (h : SameTransmitInput s t) : encodeTotal t = encodeTotal s := by
  rw [encodeTotal_eq, encodeTotal_eq, h.txbCount, charLen_congr h.params h.format h.baud]

theorem SameTransmitInput.checks (h : SameTransmitInput s t) :
    (t.baudOk && t.fmtOk && t.txbFits) = (s.baudOk && s.fmtOk && s.txbFits) := by
  rw [baudOk_congr h.params h.baud, fmtOk_congr h.format, State.txbFits, State.txbFits, h.txbCount, h.params]

theorem encodeWrite_sameResult (h : SameTransmitInput s t) (hst : t.status = s.status) (hf : s.fmtOk = true) :
    SameTransmitResult (encodeWrite s) (encodeWrite t) := by
  have hlen : (encodeStream s (payload s)).length = encodeTotal s := by
    rw [encodeStream_length hf, payload_length, encodeTotal_eq]
  rw [encodeWrite, encodeWrite, h.stream, h.total]
  exact ⟨hst, rfl, fun a ha => readSample_writeSamples_any (hlen.symm ▸ lt_of_lt_register ha)⟩

/-- The same checks decide, and where they raise `TXS_COUNT` is 0. -/
theorem encodeBody_sameResult (h : SameTransmitInput s t) (hst : t.status = s.status) :
    SameTransmitResult (encodeBody s) (encodeBody t) := by
  rw [encodeBody, encodeBody]
  by_cases hok : (s.baudOk && s.fmtOk && s.txbFits) = true
  · rcases Nat.lt_or_ge s.params.txsCapacity (encodeTotal s) with hfull | hfits
    · rw [encodeWith_alloc _ hok hfull, encodeWith_alloc _ (h.checks ▸ hok) (h.params ▸ h.total ▸ hfull)]
      exact ⟨by simp [hst], rfl, nofun⟩
    · rw [encodeWith_checked _ hok hfits, encodeWith_checked _ (h.checks ▸ hok) (h.params ▸ h.total ▸ hfits)]
      exact encodeWrite_sameResult (s := latchSpb (setTxsCount 0 s)) (t := latchSpb (setTxsCount 0 t))
        { h with } hst ((encodeChecks_iff s).1 hok).2.1
  · rw [encodeWith_invalid _ hok, encodeWith_invalid _ (h.checks ▸ hok)]
    exact ⟨by simp [hst], rfl, nofun⟩

/-! ### `DECODE` -/

/-- Two states that agree on what the receive side answers: the status and the valid part of RXB. -/
structure SameReceiveResult (s t : State) : Prop where
  status : t.status = s.status
  rxbCount : t.rxbCount = s.rxbCount
  rxpos : t.rxpos = s.rxpos
  bytes : ∀ a, a < s.rxbCount.toNat → readByte t .rxb a = readByte s .rxb a

theorem decodeChecks_congr {n : Nat} (h : SameReceiveInput n s t) :
    (t.baudOk && t.fmtOk && t.rxsFits) = (s.baudOk && s.fmtOk && s.rxsFits) := by
  rw [baudOk_congr h.params h.baud, fmtOk_congr h.format, State.rxsFits, State.rxsFits, h.rxsCount, h.params]

/-- The loop starts from the old `XCOUNT`, which reaches nothing but the new one. -/
theorem decodeRun_sameResult (h : SameReceiveInput s.rxsCount.toNat s t) (hst : t.status = s.status) :
    SameReceiveResult (decodeRun s) (decodeRun t) := by
  obtain ⟨hout, hpos, htrunc⟩ : (decodeStream t).out = (decodeStream s).out ∧
      (decodeStream t).pos = (decodeStream s).pos ∧ (decodeStream t).trunc = (decodeStream s).trunc := by
    rw [decodeStream, decodeStream, h.rxsCount, decodeLoop_congr h]
    exact decodeLoop_xcount ..
  rw [decodeRun, decodeRun, decodeFinish, decodeFinish, hout, hpos, htrunc]
  exact ⟨by simp [hst], rfl, rfl, fun a ha => readByte_writeBytes_any (lt_of_lt_register ha)⟩

/-- The same checks decide, and where they raise `RXB_COUNT` is 0. -/
theorem decodeBody_sameResult (h : SameReceiveInput s.rxsCount.toNat s t) (hst : t.status = s.status) :
    SameReceiveResult (decodeBody s) (decodeBody t) := by
  rw [decodeBody, decodeBody]
  by_cases hok : (s.baudOk && s.fmtOk && s.rxsFits) = true
  · rw [decodeWith_checked _ hok, decodeWith_checked _ (decodeChecks_congr h ▸ hok)]
    exact decodeRun_sameResult (s := latchSpb (setRxpos 0 (setRxbCount 0 s)))
      (t := latchSpb (setRxpos 0 (setRxbCount 0 t))) { h with } hst
  · rw [decodeWith_invalid _ hok, decodeWith_invalid _ (decodeChecks_congr h ▸ hok)]
    exact ⟨by simp [hst], rfl, rfl, nofun⟩

/-- Settles O18: acceptance gives both states one status, and completion keeps what the bodies agree on. -/
theorem eachDirectionReadsOnlyItsOwnInput : Obligations.EachDirectionReadsOnlyItsOwnInput := by
  intro s t hp hf hb
  refine ⟨fun hcount hbytes => ?_, fun hcount hsamples => ?_⟩
  · have hres := encodeBody_sameResult (s := accept s) (t := accept t) ⟨hp, hf, hb, hcount, hbytes⟩ rfl
    exact ⟨_, _, exec_eq_command .encode s, exec_eq_command .encode t,
      complete_status_congr hres.status, hres.txsCount, hres.samples⟩
  · have hres := decodeBody_sameResult (s := accept s) (t := accept t) ⟨hp, hf, hb, hcount, hsamples⟩ rfl
    exact ⟨_, _, exec_eq_command .decode s, exec_eq_command .decode t,
      complete_status_congr hres.status, hres.rxbCount, hres.rxpos, hres.bytes⟩

end Sys2Proof.Machine
end

section
/-! PROOFS. What reset leaves (70_reset_and_hazards.md R160), and the baud rates at which the core is deaf to its own
mark tone (70_reset_and_hazards.md R167). -/

namespace Sys2Proof.Machine

/-! ### Reset -/

/-- In a new life of the buffers nothing has been written yet (20_memory.md R50). -/
theorem readByte_hostReset (s : State) (b : ByteBuf) (i : Nat) :
    readByte (hostReset s) b i = Config.unwrittenByte (s.epoch + 1) b i := by
  cases b <;> rfl

theorem readSample_hostReset (s : State) (b : SampleBuf) (i : Nat) :
    readSample (hostReset s) b i = Config.unwrittenSample (s.epoch + 1) b i := by
  cases b <;> rfl

theorem step_reset {s : State} {rest : List HostAct} (hp : s.params.ok = true) (hh : s.host = .reset :: rest) :
    step s = .next (hostReset { s with host := rest }) := step_host hp hh

/-- Settles O7: `hostReset` takes nothing from the old state but its parameters, its script and its counters. -/
theorem resetAbandonsTheRunningCommand : Obligations.ResetAbandonsTheRunningCommand := by
  intro s rest hp hh
  refine ⟨_, step_reset hp hh, rfl, rfl, rfl, rfl, rfl, rfl, rfl, rfl, rfl, rfl, rfl, rfl, rfl, rfl, rfl, rfl, ?_, ?_⟩
  · exact readByte_hostReset { s with host := rest }
  · exact readSample_hostReset { s with host := rest }

/-! ### The deaf baud rates -/

/-- A legal rate is positive as an unsigned number too (40_tone_unit.md R80). -/
theorem baud_pos {s : State} (hb : s.baudOk = true) : 1 ≤ s.baud.toNat := by
  have hspb := samplesPerBit_pos hb
  rw [samplesPerBit_eq_div hb] at hspb
  exact Nat.pos_of_ne_zero fun h => by simp [h] at hspb

theorem deafLength_iff (n : Nat) :
    deafLength n = true ↔ (1 ≤ n ∧ n ≤ 9) ∨ (13 ≤ n ∧ n ≤ 18) ∨ (25 ≤ n ∧ n ≤ 27) := by
  simp only [deafLength, Bool.or_eq_true, Bool.and_eq_true, decide_eq_true_eq, or_assoc]

/-- The divisors that give a quotient between two bounds. -/
theorem div_mem_range_iff {b : Nat} (hb : 0 < b) (n lo hi : Nat) :
    lo ≤ n / b ∧ n / b ≤ hi ↔ lo * b ≤ n ∧ n < (hi + 1) * b := by
  rw [Nat.le_div_iff_mul_le hb, ← Nat.div_lt_iff_lt_mul hb, Nat.lt_succ_iff]

/-- The baud rates of R167 are those at which the window has a deaf length (40_tone_unit.md R90). -/
theorem deafLength_div_iff {b : Nat} (hb : 1 ≤ b) :
    deafLength (44100 / b) = true ↔
      (1576 ≤ b ∧ b ≤ 1764) ∨ (2322 ≤ b ∧ b ≤ 3392) ∨ (4411 ≤ b ∧ b ≤ 44100) := by
  rw [deafLength_iff, div_mem_range_iff hb, div_mem_range_iff hb, div_mem_range_iff hb]
  omega

/-- The core misses its own mark tone exactly at the deaf lengths. -/
theorem classify_mark_eq_false_iff {p : Params} {n : Nat} (hp : p.ok = true) (hd : DesignRates p) (hn : 1 ≤ n) :
    classify p (synth p true n) = false ↔ deafLength n = true := by
  rw [classify_ownTone hp hd hn, Bool.true_and, Bool.not_eq_false']

/-- Settles O29: a window has a deaf length exactly at these rates. -/
theorem deafBaudRates : Obligations.DeafBaudRates := by
  intro s hp hd hb
  rw [classify_mark_eq_false_iff hp hd (samplesPerBit_pos hb), samplesPerBit_eq_div hb, hd.sampleRate]
  exact deafLength_div_iff (baud_pos hb)

end Sys2Proof.Machine
end
